-- ==== Sys2Proof/Word.lean ====
section
/-! DEFINITION. The one bit-encoded word of the block: the byte of the serial streams (30_encoding.md R45, R47).
Every other value of the block is a natural number whose width is a configuration parameter (00_scope.md R6,
20_memory.md R33), so it is a `Nat` here and its width is checked where it enters the block. -/

namespace Sys2Proof

/-- One byte of the inbound or outbound serial stream; bit 0 is the least significant bit (R47). -/
abbrev Byte := BitVec 8

end Sys2Proof
end

