-- ==== Sys2Proof/Config.lean ====
section
/-! DEFINITION. The configuration record `Cfg` (00_scope.md R4), its defaults and its well-formedness (R5), and
the values the spec leaves open.
A configuration is fixed before reset and never written afterwards. State carries it (log 1), so that a statement about
every state is a statement about every configuration. -/

namespace Sys2Proof

/-- The configuration record of R4, one field per row of its table, in the table's order. -/
structure Cfg where
  /-- number of capture channels -/
  nch : Nat
  /-- filter window, ring capacity -/
  n : Nat
  /-- PWM neutral value, ring pre-fill (µs) -/
  neutralUs : Nat
  /-- midpoint threshold of the mode crossing (µs) -/
  modeThreshUs : Nat
  /-- lower end of the steering input range (µs) -/
  steerInMinUs : Nat
  /-- upper end of the steering input range (µs) -/
  steerInMaxUs : Nat
  /-- lower end of the servo angle range (degrees) -/
  steerOutMinDeg : Nat
  /-- upper end of the servo angle range (degrees) -/
  steerOutMaxDeg : Nat
  /-- tick interval (ms) -/
  tickMs : Nat
  /-- blink period (ms) -/
  blinkPeriodMs : Nat
  /-- on part of the blink period (ms) -/
  blinkOnMs : Nat
  /-- width `W_US` of the microsecond counter, of timestamps and of pulse widths (bits) -/
  wUs : Nat
  /-- width `W_MS` of the millisecond counter (bits) -/
  wMs : Nat
  /-- reset value of every `ch[c].raw` (µs) -/
  rawResetUs : Nat
  /-- reset value of `prev_sel` (µs) -/
  prevResetUs : Nat
  /-- upper drive threshold, above it forward (µs) -/
  driveFwdThreshUs : Nat
  /-- lower drive threshold, below it reverse (µs) -/
  driveRevThreshUs : Nat
  /-- forward calibration pulse (µs) -/
  driveFwdUs : Nat
  /-- reverse calibration pulse (µs) -/
  driveRevUs : Nat
  /-- neutral calibration pulse (µs) -/
  driveNeutralUs : Nat
  /-- angle taken as straight by the turn test (degrees) -/
  steerCenterDeg : Nat
  /-- turn dead-band half width (degrees) -/
  turnDeadbandDeg : Nat
  /-- an angle below centre is a left turn -/
  leftIsLowAngle : Bool
  /-- autonomous angle of symbol Straight (degrees) -/
  angleStraight : Nat
  /-- autonomous angle of symbol SoftLeft (degrees) -/
  angleSoftLeft : Nat
  /-- autonomous angle of symbol SoftRight (degrees) -/
  angleSoftRight : Nat
  /-- autonomous angle of symbol HardLeft (degrees) -/
  angleHardLeft : Nat
  /-- autonomous angle of symbol HardRight (degrees) -/
  angleHardRight : Nat
  /-- command byte: force Autonomous -/
  cmdForceAuto : Byte
  /-- command byte: force Manual -/
  cmdForceManual : Byte
  /-- command byte: steer straight -/
  cmdStraight : Byte
  /-- command byte: soft left -/
  cmdSoftLeft : Byte
  /-- command byte: soft right -/
  cmdSoftRight : Byte
  /-- command byte: hard left -/
  cmdHardLeft : Byte
  /-- command byte: hard right -/
  cmdHardRight : Byte
  /-- command byte: drive forward -/
  cmdForward : Byte
  /-- command byte: drive backward -/
  cmdBackward : Byte
  /-- command byte: drive neutral -/
  cmdNeutral : Byte
  /-- status byte: entered Autonomous -/
  notifyAuto : Byte
  /-- status byte: entered Manual -/
  notifyManual : Byte
deriving DecidableEq, Repr

/-- The default column of R4's table. Defaults whose origin is a decision D<n> are the spec's own choice, not the
source's (DESIGN CHOICE of the spec, log 2 and log 12). -/
def Cfg.default : Cfg where
  nch := 3
  n := 5
  neutralUs := 1500
  modeThreshUs := 1500
  steerInMinUs := 900
  steerInMaxUs := 1800
  steerOutMinDeg := 45
  steerOutMaxDeg := 135
  tickMs := 10
  blinkPeriodMs := 400
  blinkOnMs := 200
  wUs := 32
  wMs := 32
  rawResetUs := 1500
  prevResetUs := 1500
  driveFwdThreshUs := 1600
  driveRevThreshUs := 1450
  driveFwdUs := 1600
  driveRevUs := 1400
  driveNeutralUs := 1500
  steerCenterDeg := 90
  turnDeadbandDeg := 20
  leftIsLowAngle := true
  angleStraight := 90
  angleSoftLeft := 65
  angleSoftRight := 115
  angleHardLeft := 45
  angleHardRight := 135
  cmdForceAuto := 0x41
  cmdForceManual := 0x4D
  cmdStraight := 0x53
  cmdSoftLeft := 0x6C
  cmdSoftRight := 0x72
  cmdHardLeft := 0x4C
  cmdHardRight := 0x52
  cmdForward := 0x46
  cmdBackward := 0x42
  cmdNeutral := 0x4E
  notifyAuto := 0x41
  notifyManual := 0x4D

/-- The ten command bytes, in the order of R48's table. -/
def Cfg.cmdBytes (c : Cfg) : List Byte :=
  [c.cmdForceAuto, c.cmdForceManual, c.cmdStraight, c.cmdSoftLeft, c.cmdSoftRight,
   c.cmdHardLeft, c.cmdHardRight, c.cmdForward, c.cmdBackward, c.cmdNeutral]

/-- The five autonomous angles, in the order of R4's table. -/
def Cfg.angles (c : Cfg) : List Nat :=
  [c.angleStraight, c.angleSoftLeft, c.angleSoftRight, c.angleHardLeft, c.angleHardRight]

/-- Every microsecond-valued field, for R5 (i). -/
def Cfg.microFields (c : Cfg) : List Nat :=
  [c.neutralUs, c.modeThreshUs, c.steerInMinUs, c.steerInMaxUs, c.rawResetUs, c.prevResetUs,
   c.driveFwdThreshUs, c.driveRevThreshUs, c.driveFwdUs, c.driveRevUs, c.driveNeutralUs]

/-- R5 (a): the counts the source fixes. -/
abbrev Cfg.WfCounts (c : Cfg) : Prop := c.nch = 3 ∧ c.n = 5

/-- R5 (b): the two ranges of the affine steering map are not empty. -/
abbrev Cfg.WfRanges (c : Cfg) : Prop :=
  c.steerInMinUs < c.steerInMaxUs ∧ c.steerOutMinDeg < c.steerOutMaxDeg

/-- R5 (c): the drive thresholds lie around neutral, and not symmetrically. -/
abbrev Cfg.WfDeadband (c : Cfg) : Prop :=
  c.driveRevThreshUs < c.neutralUs ∧ c.neutralUs < c.driveFwdThreshUs ∧
  c.neutralUs - c.driveRevThreshUs ≠ c.driveFwdThreshUs - c.neutralUs

/-- R5 (d): a filtered drive value of 1900 yields forward. -/
abbrev Cfg.WfForward (c : Cfg) : Prop := c.driveFwdThreshUs < 1900

/-- R5 (e): the blink has an on part and an off part, and the tick interval is not zero. -/
abbrev Cfg.WfTimes (c : Cfg) : Prop :=
  0 < c.blinkOnMs ∧ c.blinkOnMs < c.blinkPeriodMs ∧ 0 < c.tickMs

/-- R5 (f): each autonomous angle lies in the servo range. -/
abbrev Cfg.WfAngles (c : Cfg) : Prop :=
  ∀ a ∈ c.angles, c.steerOutMinDeg ≤ a ∧ a ≤ c.steerOutMaxDeg

/-- R5 (g): the ten command bytes are pairwise distinct, and so are the two status bytes. -/
abbrev Cfg.WfBytes (c : Cfg) : Prop := c.cmdBytes.Nodup ∧ c.notifyAuto ≠ c.notifyManual

/-- R5 (h): the two reset values of the mode-select path lie on one side of the threshold. -/
abbrev Cfg.WfSides (c : Cfg) : Prop :=
  (c.rawResetUs ≤ c.modeThreshUs ∧ c.prevResetUs ≤ c.modeThreshUs) ∨
  (c.modeThreshUs < c.rawResetUs ∧ c.modeThreshUs < c.prevResetUs)

/-- R5 (i): every field fits the width it is compared at, and the widths hold the defaults. -/
abbrev Cfg.WfWidths (c : Cfg) : Prop :=
  (∀ v ∈ c.microFields, v < 2 ^ c.wUs) ∧ c.tickMs < 2 ^ c.wMs ∧ c.blinkPeriodMs < 2 ^ c.wMs ∧
  11 ≤ c.wUs ∧ 9 ≤ c.wMs

/-- R5 (j): the turn test is computed in naturals. -/
abbrev Cfg.WfCentre (c : Cfg) : Prop := c.turnDeadbandDeg ≤ c.steerCenterDeg

/-- R5: a configuration is well formed when (a) to (j) all hold. -/
abbrev Cfg.WellFormed (c : Cfg) : Prop :=
  c.WfCounts ∧ c.WfRanges ∧ c.WfDeadband ∧ c.WfForward ∧ c.WfTimes ∧ c.WfAngles ∧ c.WfBytes ∧
  c.WfSides ∧ c.WfWidths ∧ c.WfCentre

/-- R5 as a check the step can run: any other configuration is refused (D36). -/
def Cfg.wf (c : Cfg) : Bool := decide c.WellFormed

/-! ## Free values

R5 does not bound the configured angles and pulses by the port widths of 30_encoding.md R54, and no rule says what a port
holds after a write of a value that does not fit it. That value is free (log 9): nothing here says which it is. -/

/-- What the port `out_angle` holds after a write of a value of 256 or more. -/
opaque Config.wideAngle : Nat → BitVec 8

/-- What the port `out_drive_us` holds after a write of a value of 65536 or more. -/
opaque Config.widePulse : Nat → BitVec 16

end Sys2Proof
end

