-- ==== Sys2Proof/Syntax.lean ====
section
/-! DEFINITION. The operations of the block as syntax: one constructor of `Instr` per row of spec/opcode_table.json, the
enumerations of 30_encoding.md section 4, the events of R55 and the trace notation of R56 and R57. -/

namespace Sys2Proof

/-- The three capture channels (R46). -/
inductive Chan where
  | steering
  | drive
  | modeSelect
deriving DecidableEq, Repr

/-- The control mode (R18, R50); it is not a privilege mode (R152). -/
inductive Mode where
  | manual
  | autonomous
deriving DecidableEq, Repr

/-- The steering symbols (R20, R51). -/
inductive SteerSym where
  | straight
  | softLeft
  | softRight
  | hardLeft
  | hardRight
deriving DecidableEq, Repr

/-- The drive symbols (R20, R52). -/
inductive DriveSym where
  | neutral
  | forward
  | backward
deriving DecidableEq, Repr

/-- The tri-state result of the drive decision in either mode (R52). -/
inductive DriveState where
  | dNeutral
  | dForward
  | dReverse
deriving DecidableEq, Repr

/-- The format column of the opcode table: two bit-encoded formats (R45), and two classes with no bit encoding. -/
inductive Format where
  | cmd
  | sts
  | event
  | phase
deriving DecidableEq, Repr

/-- The operations of the block, one constructor per row of spec/opcode_table.json, in the table's order. -/
inductive Instr where
  /-- CMD.FORCE_AUTO (R88) -/
  | cmdForceAuto
  /-- CMD.FORCE_MANUAL (R89) -/
  | cmdForceManual
  /-- CMD.STRAIGHT (R99) -/
  | cmdStraight
  /-- CMD.SOFT_LEFT (R100) -/
  | cmdSoftLeft
  /-- CMD.SOFT_RIGHT (R101) -/
  | cmdSoftRight
  /-- CMD.HARD_LEFT (R102) -/
  | cmdHardLeft
  /-- CMD.HARD_RIGHT (R103) -/
  | cmdHardRight
  /-- CMD.FORWARD (R104) -/
  | cmdForward
  /-- CMD.BACKWARD (R105) -/
  | cmdBackward
  /-- CMD.NEUTRAL (R106) -/
  | cmdNeutral
  /-- CMD.IGNORED (R107); the operand is the byte, unused -/
  | cmdIgnored (b : Byte)
  /-- NOTIFY.AUTO (R90, R53) -/
  | notifyAuto
  /-- NOTIFY.MANUAL (R90, R53) -/
  | notifyManual
  /-- EDGE.RISE(c, now_us) (R66) -/
  | edgeRise (c : Chan) (nowUs : Nat)
  /-- EDGE.FALL(c, now_us) (R67) -/
  | edgeFall (c : Chan) (nowUs : Nat)
  /-- RX.PUSH(b) (R96) -/
  | rxPush (b : Byte)
  /-- TICK(now_ms, phase_ms) (R136) -/
  | tick (nowMs phaseMs : Nat)
  /-- SNAP (R36) -/
  | snap
  /-- FILT.UPDATE(s0, s1) (R76) -/
  | filtUpdate (s0 s1 : Nat)
  /-- MODE.XING(s2) (R87) -/
  | modeXing (s2 : Nat)
  /-- CMD.DRAIN (R97) -/
  | cmdDrain
  /-- OUT.MAP(f_steer, f_drive, phase_ms) (R122) -/
  | outMap (fSteer fDrive phaseMs : Nat)
  /-- OUT.EMIT(angle, pulse, l, r) (R130) -/
  | outEmit (angle pulse : Nat) (ledL ledR : Bool)
deriving DecidableEq, Repr

/-- The format of each row, as the table gives it. -/
def Instr.format : Instr → Format
  | .cmdForceAuto | .cmdForceManual | .cmdStraight | .cmdSoftLeft | .cmdSoftRight | .cmdHardLeft
  | .cmdHardRight | .cmdForward | .cmdBackward | .cmdNeutral | .cmdIgnored _ => .cmd
  | .notifyAuto | .notifyManual => .sts
  | .edgeRise _ _ | .edgeFall _ _ | .rxPush _ | .tick _ _ => .event
  | .snap | .filtUpdate _ _ | .modeXing _ | .cmdDrain | .outMap _ _ _ | .outEmit _ _ _ _ => .phase

/-- The atomic steps a run is made of (R8, R39): the four events of R55. -/
inductive Event where
  | edgeRise (c : Chan) (nowUs : Nat)
  | edgeFall (c : Chan) (nowUs : Nat)
  | rxPush (b : Byte)
  | tick (nowMs phaseMs : Nat)
deriving DecidableEq, Repr

/-- The operation an event is. -/
def Event.toInstr : Event → Instr
  | .edgeRise c t => .edgeRise c t
  | .edgeFall c t => .edgeFall c t
  | .rxPush b => .rxPush b
  | .tick m p => .tick m p

/-- One line of the trace notation (R56), with the pseudo-operations of R57. A comment is no line here, and `RESET` is a
start state, not a step (log 27). -/
inductive TraceLine where
  /-- `RISE c @t` -/
  | rise (c : Chan) (t : Nat)
  /-- `FALL c @t` -/
  | fall (c : Chan) (t : Nat)
  /-- `RX 'x'` or `RX 0xNN` -/
  | rx (b : Byte)
  /-- `TICK @m` -/
  | tick (m : Nat)
  /-- `TICK @m phase p` -/
  | tickPhase (m p : Nat)
  /-- `PULSE c @t w` -/
  | pulse (c : Chan) (t w : Nat)
  /-- `RXS "xyz"` -/
  | rxs (bs : List Byte)
deriving DecidableEq, Repr

end Sys2Proof
end

