-- ==== Sys2Proof/WellFormed.lean ====
section
/-! DEFINITION. Which terms of the syntax stand for an operation of the spec: every operand within its width
(30_encoding.md R54, R55; the operand lines of R66, R67, R76, R87, R122), and a `CMD.IGNORED` byte that is none of the ten
command bytes (R48, R49). -/

namespace Sys2Proof

/-- Every operand is within its width, and an ignored byte equals none of the ten `CMD_*` fields. -/
def Instr.wf (cfg : Cfg) : Instr → Bool
  | .cmdForceAuto | .cmdForceManual | .cmdStraight | .cmdSoftLeft | .cmdSoftRight | .cmdHardLeft
  | .cmdHardRight | .cmdForward | .cmdBackward | .cmdNeutral => true
  | .cmdIgnored b => decide (b ∉ cfg.cmdBytes)
  | .notifyAuto | .notifyManual => true
  | .edgeRise _ t | .edgeFall _ t => decide (t < 2 ^ cfg.wUs)
  | .rxPush _ => true
  | .tick m p => decide (m < 2 ^ cfg.wMs) && decide (p < 2 ^ cfg.wMs)
  | .snap | .cmdDrain => true
  | .filtUpdate s0 s1 => decide (s0 < 2 ^ cfg.wUs) && decide (s1 < 2 ^ cfg.wUs)
  | .modeXing s2 => decide (s2 < 2 ^ cfg.wUs)
  | .outMap fs fd p =>
    decide (fs < 2 ^ cfg.wUs) && decide (fd < 2 ^ cfg.wUs) && decide (p < 2 ^ cfg.wMs)
  | .outEmit a p _ _ => decide (a < 2 ^ 8) && decide (p < 2 ^ 16)

/-- An event whose operands are within their widths (R55). -/
def Event.wf (cfg : Cfg) (e : Event) : Bool := e.toInstr.wf cfg

/-- A trace line whose numbers are within the widths R56 gives them. The width of a `PULSE` is a pulse width, so it is a
`W_US` bit value too (R57). -/
def TraceLine.wf (cfg : Cfg) : TraceLine → Bool
  | .rise _ t | .fall _ t => decide (t < 2 ^ cfg.wUs)
  | .rx _ | .rxs _ => true
  | .tick m => decide (m < 2 ^ cfg.wMs)
  | .tickPhase m p => decide (m < 2 ^ cfg.wMs) && decide (p < 2 ^ cfg.wMs)
  | .pulse _ t w => decide (t < 2 ^ cfg.wUs) && decide (w < 2 ^ cfg.wUs)

end Sys2Proof
end

