-- ==== Sys2Proof/Decode.lean ====
section
/-! DEFINITION. The two encoded formats of the block and the numeric codes of its enumerations (30_encoding.md): the
decoder of an inbound command byte (R48), the decoder of an outbound status byte (R53), the encoder, and the codes of R46,
R50, R51 and R52. -/

namespace Sys2Proof

/-- Why a decoder answers no operation. Every inbound byte decodes (R49), so the only refusals are these two. -/
inductive DecodeError where
  /-- There is no byte to decode. Raised by `decode` and `decodeStatus` on an empty list; safe: nothing is run. -/
  | noByte
  /-- The byte is none of the two status bytes of R53. Raised by `decodeStatus`; safe: the block never emits it. -/
  | notAStatus (b : Byte)
deriving DecidableEq, Repr

/-- R48, with the tests of R98: the operation an inbound byte selects. The ten bytes of a well-formed configuration are
pairwise distinct, so the order of the tests does not matter there; any other byte is `CMD.IGNORED` (R49). -/
def decodeCmd (cfg : Cfg) (b : Byte) : Instr :=
  if b = cfg.cmdForceAuto then .cmdForceAuto
  else if b = cfg.cmdForceManual then .cmdForceManual
  else if b = cfg.cmdStraight then .cmdStraight
  else if b = cfg.cmdSoftLeft then .cmdSoftLeft
  else if b = cfg.cmdSoftRight then .cmdSoftRight
  else if b = cfg.cmdHardLeft then .cmdHardLeft
  else if b = cfg.cmdHardRight then .cmdHardRight
  else if b = cfg.cmdForward then .cmdForward
  else if b = cfg.cmdBackward then .cmdBackward
  else if b = cfg.cmdNeutral then .cmdNeutral
  else .cmdIgnored b

/-- R45: "a decoder reads one byte, classifies it by rule R48, and is done". Total on any bytes; it answers the operation
and the bytes it did not read. -/
def decode (cfg : Cfg) : List Byte → Except DecodeError (Instr × List Byte)
  | [] => .error .noByte
  | b :: rest => .ok (decodeCmd cfg b, rest)

/-- The format STS of R45 and R53: the status an outbound byte carries. -/
def decodeStatus (cfg : Cfg) : List Byte → Except DecodeError (Instr × List Byte)
  | [] => .error .noByte
  | b :: rest =>
    if b = cfg.notifyAuto then .ok (.notifyAuto, rest)
    else if b = cfg.notifyManual then .ok (.notifyManual, rest)
    else .error (.notAStatus b)

/-- The bytes of an operation: one byte for the formats CMD (R48) and STS (R53), the byte itself for `RX.PUSH` (R96, R56),
and none for the operations without a bit encoding (R55, R56). -/
def encode (cfg : Cfg) : Instr → List Byte
  | .cmdForceAuto => [cfg.cmdForceAuto]
  | .cmdForceManual => [cfg.cmdForceManual]
  | .cmdStraight => [cfg.cmdStraight]
  | .cmdSoftLeft => [cfg.cmdSoftLeft]
  | .cmdSoftRight => [cfg.cmdSoftRight]
  | .cmdHardLeft => [cfg.cmdHardLeft]
  | .cmdHardRight => [cfg.cmdHardRight]
  | .cmdForward => [cfg.cmdForward]
  | .cmdBackward => [cfg.cmdBackward]
  | .cmdNeutral => [cfg.cmdNeutral]
  | .cmdIgnored b => [b]
  | .notifyAuto => [cfg.notifyAuto]
  | .notifyManual => [cfg.notifyManual]
  | .rxPush b => [b]
  | .edgeRise _ _ | .edgeFall _ _ | .tick _ _ => []
  | .snap | .filtUpdate _ _ | .modeXing _ | .cmdDrain | .outMap _ _ _ | .outEmit _ _ _ _ => []

/-- The first `k` bytes of a number, least significant first. -/
def numberBytes : Nat → Nat → List Byte
  | 0, _ => []
  | k + 1, w => BitVec.ofNat 8 w :: numberBytes k (w / 256)

/-- The bytes of a table word of `nbits` bits, the first byte at the lowest place (spec/opcode_table.json's numbering). -/
def tableBytes (nbits w : Nat) : List Byte := numberBytes (nbits / 8) w

/-- The operation the decoder reads from a table word, with the default command bytes, which are the ones the table
encodes (log 5). -/
def decodeTableWord (nbits w : Nat) : Option Instr :=
  match decode Cfg.default (tableBytes nbits w) with
  | .ok (i, _) => some i
  | .error _ => none

/-! ## Numeric codes (30_encoding.md section 4) -/

/-- R46: channel numbers. -/
def Chan.code : Chan → BitVec 2
  | .steering => 0
  | .drive => 1
  | .modeSelect => 2

/-- The channel of a number; 3 names none (R55: `c` in 0..2). -/
def Chan.ofCode (v : BitVec 2) : Option Chan :=
  if v = 0 then some .steering else if v = 1 then some .drive else if v = 2 then some .modeSelect
  else none

/-- R50: mode codes. -/
def Mode.code : Mode → BitVec 1
  | .manual => 0
  | .autonomous => 1

/-- The mode of a code. -/
def Mode.ofCode (v : BitVec 1) : Mode := if v = 0 then .manual else .autonomous

/-- R51: steering symbol codes. -/
def SteerSym.code : SteerSym → BitVec 3
  | .straight => 0
  | .softLeft => 1
  | .softRight => 2
  | .hardLeft => 3
  | .hardRight => 4

/-- The steering symbol of a code; codes 5 to 7 never occur (R51). -/
def SteerSym.ofCode (v : BitVec 3) : Option SteerSym :=
  if v = 0 then some .straight else if v = 1 then some .softLeft else if v = 2 then some .softRight
  else if v = 3 then some .hardLeft else if v = 4 then some .hardRight else none

/-- R52: drive symbol codes. -/
def DriveSym.code : DriveSym → BitVec 2
  | .neutral => 0
  | .forward => 1
  | .backward => 2

/-- The drive symbol of a code; code 3 never occurs (R52). -/
def DriveSym.ofCode (v : BitVec 2) : Option DriveSym :=
  if v = 0 then some .neutral else if v = 1 then some .forward else if v = 2 then some .backward
  else none

/-- R52: drive state codes. -/
def DriveState.code : DriveState → BitVec 2
  | .dNeutral => 0
  | .dForward => 1
  | .dReverse => 2

/-- The drive state of a code; code 3 never occurs. -/
def DriveState.ofCode (v : BitVec 2) : Option DriveState :=
  if v = 0 then some .dNeutral else if v = 1 then some .dForward else if v = 2 then some .dReverse
  else none

end Sys2Proof
end

