-- ==== Sys2Proof/Machine/State.lean ====
section
/-! DEFINITION. The state of the block as plain data (10_state.md R10), the reasons a step can stop, and the state after
reset (R28, R165). The last three fields of `State` are the model's own (log 1, log 3, log 6). -/

namespace Sys2Proof.Machine

/-- One entry of the channel register file (R12 to R15). -/
structure Channel where
  /-- current raw pulse width in microseconds, `W_US` bits (R12) -/
  raw : Nat
  /-- edge-start timestamp, `W_US` bits (R13) -/
  start : Nat
  /-- start marker: a rising edge is pending its falling edge (R14) -/
  armed : Bool
  /-- level of the line at the last edge event; written, never read (R15) -/
  level : Bool
deriving DecidableEq, Repr

/-- The channel register file: three entries, one per capture unit (R30, R31). -/
structure Channels where
  steering : Channel
  drive : Channel
  modeSelect : Channel
deriving DecidableEq, Repr

/-- The tick-local result of OUT.MAP, the four values to be written (R122, R25). -/
structure OutTuple where
  /-- steering angle in degrees -/
  angle : Nat
  /-- drive pulse in microseconds -/
  pulse : Nat
  /-- left indicator, true = on -/
  ledL : Bool
  /-- right indicator, true = on -/
  ledR : Bool
deriving DecidableEq, Repr

/-- One output record: what the four output ports hold after one tick, in the port formats of R54 (R9, R130). -/
structure OutRecord where
  /-- steering angle in degrees, 8 bits -/
  angle : BitVec 8
  /-- drive pulse in microseconds, 16 bits -/
  pulse : BitVec 16
  /-- left indicator, true = on -/
  ledL : Bool
  /-- right indicator, true = on -/
  ledR : Bool
deriving DecidableEq, Repr

/-- The tick-local copies of the three raw widths (R25 (a), R36). -/
structure Snapshot where
  s0 : Nat
  s1 : Nat
  s2 : Nat
deriving DecidableEq, Repr

/-- The tick-local filtered values (R25 (b), R77). -/
structure Filtered where
  fSteer : Nat
  fDrive : Nat
deriving DecidableEq, Repr

/-- What a tick phase that was run alone returned: the model's home for the tick-local values of R25, empty after reset and
after every TICK (log 6). -/
structure Scratch where
  snap : Option Snapshot := none
  filt : Option Filtered := none
  out : Option OutTuple := none
deriving DecidableEq, Repr

/-- What the environment delivers next: one of the atomic steps of R8, or one byte handed straight to the command decoder
(one iteration of the drain, R98), which is how a bit-encoded operation is run by itself (log 4). -/
inductive Stimulus where
  | event (e : Event)
  | command (b : Byte)
deriving DecidableEq, Repr

/-- The reasons the machine stops with a fault: there is none. "There is no fatal-error condition" (R145). -/
inductive Fault where
deriving DecidableEq, Repr

/-- The reasons an operation is refused; R145 has "an ill-formed `Cfg` ... or an operand outside its width" and no other. -/
inductive Refusal where
  /-- Raised by `exec` for an operation without a meaning, by its mnemonic in the opcode table; safe, nothing runs. No arm
  raises it in this model. -/
  | notModelled (mnemonic : String)
  /-- Raised by every operation when the configuration breaks R5; safe: the rules are stated for well-formed ones only. -/
  | illFormedConfig
  /-- Raised by an operation whose operand does not fit the width R54 or R55 gives it; safe: no environment delivers it. -/
  | operandOutOfWidth
deriving DecidableEq, Repr

/-- The state of the block. -/
structure State where
  /-- the capture group: `ch[c]` (R12 to R15) -/
  chans : Channels
  /-- `ring[STEER]`, five slots (R16) -/
  ringSteer : Vector Nat 5
  /-- `ring[DRIVE]`, five slots (R16) -/
  ringDrive : Vector Nat 5
  /-- the shared ring position (R17) -/
  idx : Fin 5
  /-- the control mode (R18) -/
  mode : Mode
  /-- the mode-select width the preceding tick saw (R19) -/
  prevSel : Nat
  /-- last received steering command (R20) -/
  steerSym : SteerSym
  /-- last received drive command (R20) -/
  driveSym : DriveSym
  /-- millisecond sample of the last executed tick (R24) -/
  lastTickMs : Nat
  /-- steering servo port, 8 bits (R21, R54) -/
  outAngle : Option (BitVec 8)
  /-- drive servo port, 16 bits (R21, R54) -/
  outDriveUs : Option (BitVec 16)
  /-- left indicator port, 1 bit (R21, R54) -/
  outLedL : Option Bool
  /-- right indicator port, 1 bit (R21, R54) -/
  outLedR : Option Bool
  /-- inbound byte queue, oldest first (R22) -/
  rxq : List Byte
  /-- outbound byte stream in emission order (R23) -/
  tx : List Byte
  /-- the output records of the executed ticks, oldest first (R9, R130) -/
  records : List OutRecord
  /-- the configuration, fixed before reset and never written (R4); the model's own field (log 1) -/
  cfg : Cfg
  /-- results of tick phases run alone; the model's own field (log 6) -/
  scratch : Scratch
  /-- the environment's stimuli not yet delivered, next one first; the model's own field (log 3) -/
  pending : List Stimulus
deriving DecidableEq, Repr

/-- An entry of the channel register file after reset (R28). `start` is unspecified there, "model: 0" (log 10). -/
def Channel.reset (cfg : Cfg) : Channel :=
  { raw := cfg.rawResetUs, start := 0, armed := false, level := false }

/-- The state of R28 under a configuration. The source states the ring contents and the mode; the other rows are the spec's
decisions (R166, log 12). -/
def State.resetWith (cfg : Cfg) : State where
  chans := ⟨Channel.reset cfg, Channel.reset cfg, Channel.reset cfg⟩
  ringSteer := Vector.replicate 5 cfg.neutralUs
  ringDrive := Vector.replicate 5 cfg.neutralUs
  idx := 0
  mode := .manual
  prevSel := cfg.prevResetUs
  steerSym := .straight
  driveSym := .neutral
  lastTickMs := 0
  outAngle := none
  outDriveUs := none
  outLedL := none
  outLedR := none
  rxq := []
  tx := []
  records := []
  cfg := cfg
  scratch := {}
  pending := []

/-- The machine right after reset, with the default configuration (log 2). -/
def State.reset : State := State.resetWith Cfg.default

end Sys2Proof.Machine
end

