-- ==== Sys2Proof/Machine/Operands.lean ====
section
/-! DEFINITION. The number domain of the block (00_scope.md R6): the one wrapping operator, clamping, the width tests, the
port formats, and the mean of a ring (41_sample_filter.md R77). -/

namespace Sys2Proof.Machine

/-- R6: `a -_W b`, the unsigned wraparound-safe subtraction. -/
def wrapSub (w a b : Nat) : Nat := (a + 2 ^ w - b) % 2 ^ w

/-- R6: `clamp(v, lo, hi)`. -/
def clamp (v lo hi : Nat) : Nat := if v < lo then lo else if hi < v then hi else v

/-- R55: an operand of width `W_US`. -/
def fitsUs (cfg : Cfg) (v : Nat) : Bool := decide (v < 2 ^ cfg.wUs)

/-- R55: an operand of width `W_MS`. -/
def fitsMs (cfg : Cfg) (v : Nat) : Bool := decide (v < 2 ^ cfg.wMs)

/-- R54: an operand of the port `out_angle`, 8 bit unsigned. -/
def fitsAngle (v : Nat) : Bool := decide (v < 2 ^ 8)

/-- R54: an operand of the port `out_drive_us`, 16 bit unsigned. -/
def fitsPulse (v : Nat) : Bool := decide (v < 2 ^ 16)

/-- R54: what the port `out_angle` holds after a write of `v`. A value that does not fit the port leaves a free one (log 9). -/
def anglePort (v : Nat) : BitVec 8 := if fitsAngle v then BitVec.ofNat 8 v else Config.wideAngle v

/-- R54: what the port `out_drive_us` holds after a write of `v`. A value that does not fit the port leaves a free one (log 9). -/
def pulsePort (v : Nat) : BitVec 16 := if fitsPulse v then BitVec.ofNat 16 v else Config.widePulse v

/-- R77: the exact sum of the five slots of a ring. -/
def ringSum (r : Vector Nat 5) : Nat := r[0] + r[1] + r[2] + r[3] + r[4]

/-- R77: `mean(ring[f])`, the exact sum divided by `N` with truncation. -/
def ringMean (cfg : Cfg) (r : Vector Nat 5) : Nat := ringSum r / cfg.n

end Sys2Proof.Machine
end

