-- ==== Sys2Proof/Machine/Flags.lean ====
section
/-! DEFINITION. The one-bit decisions of the block. It has no condition codes (10_state.md section 6); these are its
comparators: the crossing detector (R86), the tick gate (R137), the drive decision (R118), the brake and turn conditions
(R123, R124) and the blink phase (R125). -/

namespace Sys2Proof.Machine

/-- R86: one value is on the low side of the midpoint threshold and the other on the high side. -/
def crossing (cfg : Cfg) (p q : Nat) : Bool :=
  (decide (p ≤ cfg.modeThreshUs) && decide (cfg.modeThreshUs < q)) ||
  (decide (cfg.modeThreshUs < p) && decide (q ≤ cfg.modeThreshUs))

/-- R137: at least `TICK_MS` since the last executed tick, across the counter's wrap. -/
def gateOpen (cfg : Cfg) (lastMs nowMs : Nat) : Bool :=
  decide (cfg.tickMs ≤ wrapSub cfg.wMs nowMs lastMs)

/-- R118: the manual drive decision; both comparisons are strict. -/
def driveManual (cfg : Cfg) (f : Nat) : DriveState :=
  if cfg.driveFwdThreshUs < f then .dForward
  else if f < cfg.driveRevThreshUs then .dReverse
  else .dNeutral

/-- R123: the reverse/brake condition. -/
def brake (ds : DriveState) : Bool := decide (ds = .dReverse)

/-- R124: the angle lies below the no-turn band. -/
def lowAngle (cfg : Cfg) (angle : Nat) : Bool :=
  decide (angle < cfg.steerCenterDeg - cfg.turnDeadbandDeg)

/-- R124: the angle lies above the no-turn band. -/
def highAngle (cfg : Cfg) (angle : Nat) : Bool :=
  decide (cfg.steerCenterDeg + cfg.turnDeadbandDeg < angle)

/-- R124: the left turn condition. -/
def turnLeft (cfg : Cfg) (angle : Nat) : Bool :=
  if cfg.leftIsLowAngle then lowAngle cfg angle else highAngle cfg angle

/-- R124: the right turn condition. -/
def turnRight (cfg : Cfg) (angle : Nat) : Bool :=
  if cfg.leftIsLowAngle then highAngle cfg angle else lowAngle cfg angle

/-- R125: the on part of the blink period, phase-locked to the millisecond counter's value. -/
def blinkOn (cfg : Cfg) (phaseMs : Nat) : Bool :=
  decide (phaseMs % cfg.blinkPeriodMs < cfg.blinkOnMs)

end Sys2Proof.Machine
end

