-- ==== Sys2Proof/Machine/Ops.lean ====
section
/-! DEFINITION. The named operations over the state that the meanings share (00_scope.md R7's primitives): the channel
register file, the ring memories, the byte streams, the named registers, the output ports, and the boundary check of R145.
There is no exception to take and none to return from: "The block raises no synchronous exception" (R145), and an edge
interrupt saves nothing the spec can name (R150). -/

namespace Sys2Proof.Machine

/-! ## The channel register file (R31) -/

/-- R7: read of the entry `ch[c]`. -/
def Channels.get (f : Channels) : Chan → Channel
  | .steering => f.steering
  | .drive => f.drive
  | .modeSelect => f.modeSelect

/-- R7: write of the entry `ch[c]`. -/
def Channels.set (f : Channels) (c : Chan) (e : Channel) : Channels :=
  match c with
  | .steering => { f with steering := e }
  | .drive => { f with drive := e }
  | .modeSelect => { f with modeSelect := e }

/-- The entry `ch[c]` of a state. -/
def State.ch (s : State) (c : Chan) : Channel := s.chans.get c

/-- The state with the entry `ch[c]` written. -/
def State.setCh (s : State) (c : Chan) (e : Channel) : State :=
  { s with chans := s.chans.set c e }

/-! ## The ring memories (R32) -/

/-- R76: `MemWrite` of one sample into each ring at the shared position. -/
def State.writeRings (s : State) (s0 s1 : Nat) : State :=
  { s with ringSteer := s.ringSteer.set s.idx s0, ringDrive := s.ringDrive.set s.idx s1 }

/-- R76: `idx <- (idx + 1) mod N`. -/
def State.advanceIdx (s : State) : State :=
  { s with idx := ⟨(s.idx.val + 1) % 5, Nat.mod_lt _ (by decide)⟩ }

/-! ## The named registers -/

/-- Write of `mode` (R18). -/
def State.setMode (s : State) (m : Mode) : State := { s with mode := m }

/-- Write of `prev_sel` (R19). -/
def State.setPrevSel (s : State) (v : Nat) : State := { s with prevSel := v }

/-- Write of `steer_sym` (R20). -/
def State.setSteerSym (s : State) (y : SteerSym) : State := { s with steerSym := y }

/-- Write of `drive_sym` (R20). -/
def State.setDriveSym (s : State) (y : DriveSym) : State := { s with driveSym := y }

/-- Write of `last_tick_ms` (R24). -/
def State.setLastTick (s : State) (v : Nat) : State := { s with lastTickMs := v }

/-- Write of the model's own latch of tick-local values (log 6). -/
def State.setScratch (s : State) (l : Scratch) : State := { s with scratch := l }

/-! ## The byte streams (R43) -/

/-- R7: `emit(tx, b)`. -/
def State.emitTx (s : State) (b : Byte) : State := { s with tx := s.tx ++ [b] }

/-- R96: append at the young end of `rxq`. -/
def State.pushRx (s : State) (b : Byte) : State := { s with rxq := s.rxq ++ [b] }

/-- R7: `pop(rxq)`, the oldest byte and the state without it; nothing when the queue is empty. -/
def State.popRx (s : State) : Option (Byte × State) :=
  match s.rxq with
  | [] => none
  | b :: rest => some (b, { s with rxq := rest })

/-! ## The output ports (R21, R130) -/

/-- R54: the four values of a tick as the ports hold them. -/
def OutTuple.toPorts (x : OutTuple) : OutRecord :=
  { angle := anglePort x.angle, pulse := pulsePort x.pulse, ledL := x.ledL, ledR := x.ledR }

/-- R130: all four writes, and the record appended to the observation. -/
def State.emitRecord (s : State) (r : OutRecord) : State :=
  { s with
    outAngle := some r.angle
    outDriveUs := some r.pulse
    outLedL := some r.ledL
    outLedR := some r.ledR
    records := s.records ++ [r] }

/-! ## The boundary (R5, R145) -/

/-- R145: an ill-formed configuration and an operand outside its width are refused; nothing else is. `fits` says that the
operands are within their widths, `t` is the state the operation leaves. -/
def State.atBoundary (s : State) (fits : Bool) (t : State) : Host.Outcome State Fault Refusal :=
  if s.cfg.wf then
    if fits then .next t else .refused .operandOutOfWidth
  else .refused .illFormedConfig

end Sys2Proof.Machine
end

