-- ==== Sys2Proof/Machine/Capture.lean ====
section
/-! DEFINITION. Pulse capture (40_pulse_capture.md): the two edge operations of a capture unit. -/

namespace Sys2Proof.Machine

/-- R66: what a rising edge makes of the entry of its channel. -/
def Channel.rise (e : Channel) (nowUs : Nat) : Channel :=
  { e with level := true, start := nowUs, armed := true }

/-- R67: what a falling edge makes of the entry of its channel. Not armed: nothing but `level` (a spurious edge). -/
def Channel.fall (w : Nat) (e : Channel) (nowUs : Nat) : Channel :=
  if e.armed then { e with level := false, raw := wrapSub w nowUs e.start, armed := false }
  else { e with level := false }

/-- EDGE.RISE(c, now_us) (R66). -/
def execEdgeRise (c : Chan) (nowUs : Nat) (s : State) : Host.Outcome State Fault Refusal :=
  s.atBoundary (fitsUs s.cfg nowUs) (s.setCh c ((s.ch c).rise nowUs))

/-- EDGE.FALL(c, now_us) (R67). -/
def execEdgeFall (c : Chan) (nowUs : Nat) (s : State) : Host.Outcome State Fault Refusal :=
  s.atBoundary (fitsUs s.cfg nowUs) (s.setCh c ((s.ch c).fall s.cfg.wUs nowUs))

end Sys2Proof.Machine
end

