-- ==== Sys2Proof/Machine/ModeControl.lean ====
section
/-! DEFINITION. The mode controller (42_mode_controller.md): the notification, the two force commands and the crossing. -/

namespace Sys2Proof.Machine

/-- R53: the status byte of a mode. -/
def notifyByte (cfg : Cfg) : Mode → Byte
  | .autonomous => cfg.notifyAuto
  | .manual => cfg.notifyManual

/-- R90: `NOTIFY(m)`. -/
def State.notify (s : State) (m : Mode) : State := s.emitTx (notifyByte s.cfg m)

/-- R87: the other mode. -/
def otherMode : Mode → Mode
  | .manual => .autonomous
  | .autonomous => .manual

/-- R88, R89: enter a mode with its notification, only if not already in it. -/
def State.forceMode (s : State) (m : Mode) : State :=
  if s.mode = m then s else (s.setMode m).notify m

/-- R87: toggle on a crossing, with the notification of the new mode; `prev_sel` is written always. -/
def State.xing (s : State) (s2 : Nat) : State :=
  let t := if crossing s.cfg s.prevSel s2 then (s.setMode (otherMode s.mode)).notify (otherMode s.mode) else s
  t.setPrevSel s2

/-- CMD.FORCE_AUTO (R88). -/
def execCmdForceAuto (s : State) : Host.Outcome State Fault Refusal :=
  s.atBoundary true (s.forceMode .autonomous)

/-- CMD.FORCE_MANUAL (R89). -/
def execCmdForceManual (s : State) : Host.Outcome State Fault Refusal :=
  s.atBoundary true (s.forceMode .manual)

/-- NOTIFY.AUTO (R90): the status byte of an entry to Autonomous, appended to `tx`. -/
def execNotifyAuto (s : State) : Host.Outcome State Fault Refusal :=
  s.atBoundary true (s.notify .autonomous)

/-- NOTIFY.MANUAL (R90): the status byte of an entry to Manual, appended to `tx`. -/
def execNotifyManual (s : State) : Host.Outcome State Fault Refusal :=
  s.atBoundary true (s.notify .manual)

/-- MODE.XING(s2) (R87). -/
def execModeXing (s2 : Nat) (s : State) : Host.Outcome State Fault Refusal :=
  s.atBoundary (fitsUs s.cfg s2) (s.xing s2)

end Sys2Proof.Machine
end

