-- ==== Sys2Proof/Machine/Command.lean ====
section
/-! DEFINITION. The command interpreter (43_command_interpreter.md): arrival of a byte, the steering and drive commands with
their gating (R109), the dispatch of one byte (R98) and the drain (R97). -/

namespace Sys2Proof.Machine

/-- R99 to R103 with R109: a steering command takes effect only in Autonomous. -/
def State.steerCommand (s : State) (y : SteerSym) : State :=
  if s.mode = .autonomous then s.setSteerSym y else s

/-- R104 to R106 with R109: a drive command takes effect only in Autonomous. -/
def State.driveCommand (s : State) (y : DriveSym) : State :=
  if s.mode = .autonomous then s.setDriveSym y else s

/-- R98: the effect of a decoded command. An inbound byte decodes to a command row only, so the other rows are not met. -/
def State.runCommand (s : State) : Instr → State
  | .cmdForceAuto => s.forceMode .autonomous
  | .cmdForceManual => s.forceMode .manual
  | .cmdStraight => s.steerCommand .straight
  | .cmdSoftLeft => s.steerCommand .softLeft
  | .cmdSoftRight => s.steerCommand .softRight
  | .cmdHardLeft => s.steerCommand .hardLeft
  | .cmdHardRight => s.steerCommand .hardRight
  | .cmdForward => s.driveCommand .forward
  | .cmdBackward => s.driveCommand .backward
  | .cmdNeutral => s.driveCommand .neutral
  | .cmdIgnored _ => s
  | .notifyAuto | .notifyManual | .edgeRise _ _ | .edgeFall _ _ | .rxPush _ | .tick _ _ | .snap
  | .filtUpdate _ _ | .modeXing _ | .cmdDrain | .outMap _ _ _ | .outEmit _ _ _ _ => s

/-- R98: `CMD(b)`. -/
def State.command (s : State) (b : Byte) : State := s.runCommand (decodeCmd s.cfg b)

/-- R97: at most `k` iterations of the drain's loop, oldest byte first. -/
def State.drainLoop : Nat → State → State
  | 0, s => s
  | k + 1, s =>
    match s.popRx with
    | none => s
    | some (b, t) => State.drainLoop k (t.command b)

/-- R97: the drain "performs exactly `length(rxq)` iterations". -/
def State.drain (s : State) : State := State.drainLoop s.rxq.length s

/-- RX.PUSH(b) (R96). -/
def execRxPush (b : Byte) (s : State) : Host.Outcome State Fault Refusal :=
  s.atBoundary true (s.pushRx b)

/-- CMD.DRAIN (R97). -/
def execCmdDrain (s : State) : Host.Outcome State Fault Refusal :=
  s.atBoundary true s.drain

/-- CMD.STRAIGHT (R99). -/
def execCmdStraight (s : State) : Host.Outcome State Fault Refusal :=
  s.atBoundary true (s.steerCommand .straight)

/-- CMD.SOFT_LEFT (R100). -/
def execCmdSoftLeft (s : State) : Host.Outcome State Fault Refusal :=
  s.atBoundary true (s.steerCommand .softLeft)

/-- CMD.SOFT_RIGHT (R101). -/
def execCmdSoftRight (s : State) : Host.Outcome State Fault Refusal :=
  s.atBoundary true (s.steerCommand .softRight)

/-- CMD.HARD_LEFT (R102). -/
def execCmdHardLeft (s : State) : Host.Outcome State Fault Refusal :=
  s.atBoundary true (s.steerCommand .hardLeft)

/-- CMD.HARD_RIGHT (R103). -/
def execCmdHardRight (s : State) : Host.Outcome State Fault Refusal :=
  s.atBoundary true (s.steerCommand .hardRight)

/-- CMD.FORWARD (R104). -/
def execCmdForward (s : State) : Host.Outcome State Fault Refusal :=
  s.atBoundary true (s.driveCommand .forward)

/-- CMD.BACKWARD (R105). -/
def execCmdBackward (s : State) : Host.Outcome State Fault Refusal :=
  s.atBoundary true (s.driveCommand .backward)

/-- CMD.NEUTRAL (R106). -/
def execCmdNeutral (s : State) : Host.Outcome State Fault Refusal :=
  s.atBoundary true (s.driveCommand .neutral)

/-- CMD.IGNORED (R107): nothing changes; the byte has already left `rxq`, and it is not used (log 26). -/
def execCmdIgnored (_b : Byte) (s : State) : Host.Outcome State Fault Refusal :=
  s.atBoundary true s

end Sys2Proof.Machine
end

