-- ==== Sys2Proof/Machine/Filter.lean ====
section
/-! DEFINITION. The sample filter (41_sample_filter.md). -/

namespace Sys2Proof.Machine

/-- R76: one sample into each ring at the shared position, then the position advances once. -/
def State.filtWrite (s : State) (s0 s1 : Nat) : State := (s.writeRings s0 s1).advanceIdx

/-- R76, R77: both means, over the slots as they stand. -/
def State.means (s : State) : Filtered :=
  { fSteer := ringMean s.cfg s.ringSteer, fDrive := ringMean s.cfg s.ringDrive }

/-- FILT.UPDATE(s0, s1) (R76). The returned pair goes to the model's latch (log 6). -/
def execFiltUpdate (s0 s1 : Nat) (s : State) : Host.Outcome State Fault Refusal :=
  let t := s.filtWrite s0 s1
  s.atBoundary (fitsUs s.cfg s0 && fitsUs s.cfg s1)
    (t.setScratch { t.scratch with filt := some t.means })

end Sys2Proof.Machine
end

