-- ==== Sys2Proof/Machine/Output.lean ====
section
/-! DEFINITION. The output multiplexer and the indicator logic (44_output_mapper.md). -/

namespace Sys2Proof.Machine

/-- R116: the manual steering angle, clamped at the input and at the output, truncating in between. -/
def steerManual (cfg : Cfg) (f : Nat) : Nat :=
  let x := clamp f cfg.steerInMinUs cfg.steerInMaxUs
  let a := cfg.steerOutMinDeg +
    ((x - cfg.steerInMinUs) * (cfg.steerOutMaxDeg - cfg.steerOutMinDeg)) /
      (cfg.steerInMaxUs - cfg.steerInMinUs)
  clamp a cfg.steerOutMinDeg cfg.steerOutMaxDeg

/-- R120: the autonomous steering angle of a symbol. -/
def steerAuto (cfg : Cfg) : SteerSym → Nat
  | .straight => cfg.angleStraight
  | .softLeft => cfg.angleSoftLeft
  | .softRight => cfg.angleSoftRight
  | .hardLeft => cfg.angleHardLeft
  | .hardRight => cfg.angleHardRight

/-- R121: the autonomous drive state of a symbol. -/
def driveAuto : DriveSym → DriveState
  | .forward => .dForward
  | .backward => .dReverse
  | .neutral => .dNeutral

/-- R119: the drive pulse table, used in both modes. -/
def drivePulse (cfg : Cfg) : DriveState → Nat
  | .dForward => cfg.driveFwdUs
  | .dReverse => cfg.driveRevUs
  | .dNeutral => cfg.driveNeutralUs

/-- R126: the indicator decision, the pair (left, right); brake over turn over idle (R127). -/
def indicators (cfg : Cfg) (angle : Nat) (ds : DriveState) (phaseMs : Nat) : Bool × Bool :=
  if brake ds then (true, true)
  else if turnLeft cfg angle then (blinkOn cfg phaseMs, false)
  else if turnRight cfg angle then (false, blinkOn cfg phaseMs)
  else (false, false)

/-- R122: the four output values, routed by the mode. -/
def State.outMap (s : State) (fSteer fDrive phaseMs : Nat) : OutTuple :=
  let angle := if s.mode = .manual then steerManual s.cfg fSteer else steerAuto s.cfg s.steerSym
  let ds := if s.mode = .manual then driveManual s.cfg fDrive else driveAuto s.driveSym
  let leds := indicators s.cfg angle ds phaseMs
  { angle := angle, pulse := drivePulse s.cfg ds, ledL := leds.1, ledR := leds.2 }

/-- OUT.MAP(f_steer, f_drive, phase_ms) (R122). It writes nothing; the returned tuple goes to the model's latch (log 6). -/
def execOutMap (fSteer fDrive phaseMs : Nat) (s : State) : Host.Outcome State Fault Refusal :=
  s.atBoundary (fitsUs s.cfg fSteer && fitsUs s.cfg fDrive && fitsMs s.cfg phaseMs)
    (s.setScratch { s.scratch with out := some (s.outMap fSteer fDrive phaseMs) })

/-- OUT.EMIT(angle, pulse, l, r) (R130). Run by itself, its operands have the widths of R54 (R145, log 9). -/
def execOutEmit (angle pulse : Nat) (ledL ledR : Bool) (s : State) :
    Host.Outcome State Fault Refusal :=
  s.atBoundary (fitsAngle angle && fitsPulse pulse) (s.emitRecord (OutTuple.mk angle pulse ledL ledR).toPorts)

end Sys2Proof.Machine
end

