-- ==== Sys2Proof/Machine/Tick.lean ====
section
/-! DEFINITION. The tick sequencer (45_scheduler_tick.md) and the atomic snapshot (20_memory.md R36). -/

namespace Sys2Proof.Machine

/-- R36: the three raw widths of one instant. -/
def State.snapshot (s : State) : Snapshot :=
  { s0 := (s.ch .steering).raw, s1 := (s.ch .drive).raw, s2 := (s.ch .modeSelect).raw }

/-- R136, R139: the six phases in their fixed order, after the gate has opened. The tick-local values do not survive the
tick (R7, R25). -/
def State.runTick (s : State) (nowMs phaseMs : Nat) : State :=
  let a := s.setLastTick nowMs
  let snap := a.snapshot
  let b := a.filtWrite snap.s0 snap.s1
  let f := b.means
  let c := b.xing snap.s2
  let d := c.drain
  let r := d.outMap f.fSteer f.fDrive phaseMs
  (d.emitRecord r.toPorts).setScratch {}

/-- SNAP (R36). The copies go to the model's latch (log 6). -/
def execSnap (s : State) : Host.Outcome State Fault Refusal :=
  s.atBoundary true (s.setScratch { s.scratch with snap := some s.snapshot })

/-- TICK(now_ms, phase_ms) (R136). A poll that finds the gate closed changes nothing (R7 `require`, R135, R56). -/
def execTick (nowMs phaseMs : Nat) (s : State) : Host.Outcome State Fault Refusal :=
  s.atBoundary (fitsMs s.cfg nowMs && fitsMs s.cfg phaseMs)
    (if gateOpen s.cfg s.lastTickMs nowMs then s.runTick nowMs phaseMs else s)

end Sys2Proof.Machine
end

