-- ==== Sys2Proof/Machine/Dispatch.lean ====
section
/-! DEFINITION. `exec`: one arm per operation of the opcode table, each one direct call of its meaning. -/

namespace Sys2Proof.Machine

/-- The meaning of each operation. -/
def exec (i : Instr) (s : State) : Host.Outcome State Fault Refusal :=
  match i with
  | .cmdForceAuto => Sys2Proof.Machine.execCmdForceAuto s
  | .cmdForceManual => Sys2Proof.Machine.execCmdForceManual s
  | .cmdStraight => Sys2Proof.Machine.execCmdStraight s
  | .cmdSoftLeft => Sys2Proof.Machine.execCmdSoftLeft s
  | .cmdSoftRight => Sys2Proof.Machine.execCmdSoftRight s
  | .cmdHardLeft => Sys2Proof.Machine.execCmdHardLeft s
  | .cmdHardRight => Sys2Proof.Machine.execCmdHardRight s
  | .cmdForward => Sys2Proof.Machine.execCmdForward s
  | .cmdBackward => Sys2Proof.Machine.execCmdBackward s
  | .cmdNeutral => Sys2Proof.Machine.execCmdNeutral s
  | .cmdIgnored b => Sys2Proof.Machine.execCmdIgnored b s
  | .notifyAuto => Sys2Proof.Machine.execNotifyAuto s
  | .notifyManual => Sys2Proof.Machine.execNotifyManual s
  | .edgeRise c nowUs => Sys2Proof.Machine.execEdgeRise c nowUs s
  | .edgeFall c nowUs => Sys2Proof.Machine.execEdgeFall c nowUs s
  | .rxPush b => Sys2Proof.Machine.execRxPush b s
  | .tick nowMs phaseMs => Sys2Proof.Machine.execTick nowMs phaseMs s
  | .snap => Sys2Proof.Machine.execSnap s
  | .filtUpdate s0 s1 => Sys2Proof.Machine.execFiltUpdate s0 s1 s
  | .modeXing s2 => Sys2Proof.Machine.execModeXing s2 s
  | .cmdDrain => Sys2Proof.Machine.execCmdDrain s
  | .outMap fSteer fDrive phaseMs => Sys2Proof.Machine.execOutMap fSteer fDrive phaseMs s
  | .outEmit angle pulse ledL ledR => Sys2Proof.Machine.execOutEmit angle pulse ledL ledR s

end Sys2Proof.Machine
end

