-- ==== Sys2Proof/Machine/Trace.lean ====
section
/-! DEFINITION. How stimuli reach the block: the operation a stimulus stands for, the wait for one, and the trace notation of
30_encoding.md R56 and R57 with its expansion and its encoding. -/

namespace Sys2Proof.Machine

/-- The operation a stimulus runs: an event is its own operation (R55), a byte is decoded (R48). -/
def Stimulus.fetch (cfg : Cfg) : Stimulus → Except DecodeError Instr
  | .event e => .ok e.toInstr
  | .command b =>
    match decode cfg [b] with
    | .ok (i, _) => .ok i
    | .error r => .error r

/-- Nothing to deliver: the loop polls on and nothing changes (R135, log 3). -/
def State.idle (s : State) : Host.Outcome State Fault Refusal := s.atBoundary true s

/-- R56, R57: the atomic steps a trace line stands for. `TICK @m` takes the two millisecond samples equal. -/
def expandLine (cfg : Cfg) : TraceLine → List Event
  | .rise c t => [.edgeRise c t]
  | .fall c t => [.edgeFall c t]
  | .rx b => [.rxPush b]
  | .tick m => [.tick m m]
  | .tickPhase m p => [.tick m p]
  | .pulse c t w => [.edgeRise c t, .edgeFall c ((t + w) % 2 ^ cfg.wUs)]
  | .rxs bs => bs.map .rxPush

/-- The atomic steps of a trace, top to bottom. -/
def expandTrace (cfg : Cfg) (ls : List TraceLine) : List Event := ls.flatMap (expandLine cfg)

/-- R56: the encoding of a trace is "the sequence of bytes of its `RX` lines". -/
def encodeTrace (cfg : Cfg) (ls : List TraceLine) : List Byte :=
  (expandTrace cfg ls).flatMap (fun e => encode cfg e.toInstr)

/-- The state with a trace as what the environment delivers next. -/
def State.load (s : State) (es : List Event) : State := { s with pending := es.map .event }

end Sys2Proof.Machine
end

