-- ==== Sys2Proof/Machine/Step.lean ====
section
/-! DEFINITION. The step: the environment's next stimulus, one atomic step of the run (00_scope.md R8, 20_memory.md R39). -/

namespace Sys2Proof.Machine

/-- One atomic step. The next stimulus is taken off `pending` and its operation is run; with no stimulus the block polls on.
A byte that no decoder reads would leave the block polling too; every byte decodes (R49), so this does not arise. -/
def step (s : State) : Host.Outcome State Fault Refusal :=
  match s.pending with
  | [] => s.idle
  | x :: rest =>
    match x.fetch s.cfg with
    | .ok i => exec i { s with pending := rest }
    | .error _ => State.idle { s with pending := rest }

/-- The state whose very next steps run the operations of a table word: its bytes stand at the head of `pending`, each to be
handed to the decoder (log 5). -/
def State.withFetchWord (s : State) (nbits w : Nat) : State :=
  { s with pending := (tableBytes nbits w).map .command ++ s.pending }

end Sys2Proof.Machine
end

