-- ==== Sys2Proof/Safety.lean ====
section
/-! DEFINITION. What a run of the block is (20_memory.md R39), what it shows the outside (00_scope.md R9), and what a good
state of it is (10_state.md R29): the terms the statements are written in. -/

namespace Sys2Proof

/-! ## Views of an event list (R70, R43) -/

/-- Whether an event is an edge of channel `c`. -/
def Event.isEdgeOf (c : Chan) : Event → Bool
  | .edgeRise d _ | .edgeFall d _ => decide (d = c)
  | .rxPush _ | .tick _ _ => false

/-- The bytes the environment pushes in a list of events, in order. -/
def pushedBytes : List Event → List Byte
  | [] => []
  | .rxPush b :: es => b :: pushedBytes es
  | .edgeRise _ _ :: es | .edgeFall _ _ :: es | .tick _ _ :: es => pushedBytes es

/-- Whether an event is a poll of the tick gate. -/
def Event.isTick : Event → Bool
  | .tick _ _ => true
  | .edgeRise _ _ | .edgeFall _ _ | .rxPush _ => false

end Sys2Proof

namespace Sys2Proof.Machine

/-! ## Runs -/

/-- The operations of a list, one after another, stopping at the first that does not answer a next state. -/
def runInstrs : List Instr → State → Host.Outcome State Fault Refusal
  | [], s => .next s
  | i :: is, s =>
    match exec i s with
    | .next t => runInstrs is t
    | .fault r => .fault r
    | .refused r => .refused r

/-- A run: atomic steps in one total order (R39). -/
def runEvents (es : List Event) (s : State) : Host.Outcome State Fault Refusal :=
  runInstrs (es.map Event.toInstr) s

/-- The next state of an outcome, if it is one. -/
def nextState : Host.Outcome State Fault Refusal → Option State
  | .next t => some t
  | .fault _ => none
  | .refused _ => none

/-! ## Observation -/

/-- R9: what the block shows the outside, and is only. -/
def State.observe (s : State) : List OutRecord × List Byte := (s.records, s.tx)

/-! ## Per-channel view (R70) -/

/-- What the edge events of its own channel make of a channel entry; other events leave it. -/
def Channel.after (w : Nat) (e : Channel) : Event → Channel
  | .edgeRise _ t => { raw := e.raw, start := t, armed := true, level := true }
  | .edgeFall _ t =>
    if e.armed then { raw := (t + 2 ^ w - e.start) % 2 ^ w, start := e.start, armed := false, level := false }
    else { raw := e.raw, start := e.start, armed := false, level := false }
  | .rxPush _ | .tick _ _ => e

/-! ## What a command asks for -/

/-- The symbol a steering command carries (R99 to R103). -/
def steerOf : Instr → Option SteerSym
  | .cmdStraight => some .straight
  | .cmdSoftLeft => some .softLeft
  | .cmdSoftRight => some .softRight
  | .cmdHardLeft => some .hardLeft
  | .cmdHardRight => some .hardRight
  | .cmdForceAuto | .cmdForceManual | .cmdForward | .cmdBackward | .cmdNeutral | .cmdIgnored _
  | .notifyAuto | .notifyManual | .edgeRise _ _ | .edgeFall _ _ | .rxPush _ | .tick _ _ | .snap
  | .filtUpdate _ _ | .modeXing _ | .cmdDrain | .outMap _ _ _ | .outEmit _ _ _ _ => none

/-- The symbol a drive command carries (R104 to R106). -/
def driveOf : Instr → Option DriveSym
  | .cmdForward => some .forward
  | .cmdBackward => some .backward
  | .cmdNeutral => some .neutral
  | .cmdForceAuto | .cmdForceManual | .cmdStraight | .cmdSoftLeft | .cmdSoftRight | .cmdHardLeft
  | .cmdHardRight | .cmdIgnored _ | .notifyAuto | .notifyManual | .edgeRise _ _ | .edgeFall _ _
  | .rxPush _ | .tick _ _ | .snap | .filtUpdate _ _ | .modeXing _ | .cmdDrain | .outMap _ _ _
  | .outEmit _ _ _ _ => none

/-- How often a list of mode-select samples changes side of the threshold, pair by pair from `p` on (R91). -/
def sideChanges (threshold : Nat) : Nat → List Nat → Nat
  | _, [] => 0
  | p, q :: qs =>
    (if decide (threshold < p) = decide (threshold < q) then 0 else 1) + sideChanges threshold q qs

/-! ## Sampled time (R155, R156) -/

/-- `times` are true times, one for each counter sample, that do not decrease and whose residues are the samples. -/
def TrueTimes (w : Nat) (samples times : List Nat) : Prop :=
  times.length = samples.length ∧ times.Pairwise (· ≤ ·) ∧ times.map (· % 2 ^ w) = samples

/-! ## The good states (R29) -/

/-- R29 (b): the fields of a channel entry fit `W_US` bits. -/
def Channel.Fits (cfg : Cfg) (e : Channel) : Prop := e.raw < 2 ^ cfg.wUs ∧ e.start < 2 ^ cfg.wUs

/-- R129, R29 (c): the four values of a tick within the ranges of the configuration. -/
def OutTuple.InRange (cfg : Cfg) (x : OutTuple) : Prop :=
  cfg.steerOutMinDeg ≤ x.angle ∧ x.angle ≤ cfg.steerOutMaxDeg ∧
  (x.pulse = cfg.driveFwdUs ∨ x.pulse = cfg.driveRevUs ∨ x.pulse = cfg.driveNeutralUs)

/-- R29 (c): a record is the port form of values in range. -/
def OutRecord.InRange (cfg : Cfg) (r : OutRecord) : Prop := ∃ x : OutTuple, x.InRange cfg ∧ r = x.toPorts

/-- The configured angles and pulses fit the ports, as R54's table has it (log 9). -/
abbrev FitsPorts (cfg : Cfg) : Prop :=
  cfg.steerOutMaxDeg < 2 ^ 8 ∧ cfg.driveFwdUs < 2 ^ 16 ∧ cfg.driveRevUs < 2 ^ 16 ∧ cfg.driveNeutralUs < 2 ^ 16

/-- The four output ports hold the last record, or nothing before the first one. -/
def State.PortsShow (s : State) : Option OutRecord → Prop
  | none => s.outAngle = none ∧ s.outDriveUs = none ∧ s.outLedL = none ∧ s.outLedR = none
  | some r => s.outAngle = some r.angle ∧ s.outDriveUs = some r.pulse ∧ s.outLedL = some r.ledL ∧
      s.outLedR = some r.ledR

/-- R29 (d): the status bytes of a stream that starts in mode `m`, alternating, and the mode it ends in. -/
def streamMode (cfg : Cfg) : Mode → List Byte → Option Mode
  | m, [] => some m
  | .manual, b :: bs => if b = cfg.notifyAuto then streamMode cfg .autonomous bs else none
  | .autonomous, b :: bs => if b = cfg.notifyManual then streamMode cfg .manual bs else none

/-- A stimulus whose operands are within their widths. -/
def Stimulus.wf (cfg : Cfg) : Stimulus → Bool
  | .event e => e.wf cfg
  | .command _ => true

/-- The invariant of R29, over a well-formed configuration, with the model's own fields in order. -/
structure State.Inv (s : State) : Prop where
  /-- the configuration satisfies R5 -/
  cfgWf : s.cfg.wf = true
  /-- R29 (b) for the capture group -/
  chansFit : ∀ c, (s.ch c).Fits s.cfg
  /-- R29 (b) for `ring[STEER]` -/
  steerFits : ∀ i : Fin 5, s.ringSteer[i] < 2 ^ s.cfg.wUs
  /-- R29 (b) for `ring[DRIVE]` -/
  driveFits : ∀ i : Fin 5, s.ringDrive[i] < 2 ^ s.cfg.wUs
  /-- R29 (b) for `prev_sel` -/
  prevFits : s.prevSel < 2 ^ s.cfg.wUs
  /-- R29 (b) for `last_tick_ms` -/
  lastFits : s.lastTickMs < 2 ^ s.cfg.wMs
  /-- R29 (c): every record is in range -/
  recordsInRange : ∀ r ∈ s.records, r.InRange s.cfg
  /-- R29 (c): the ports hold the last record -/
  portsShow : s.PortsShow s.records.getLast?
  /-- R29 (d): `tx` alternates from Manual and ends in the present mode -/
  txAlternates : streamMode s.cfg .manual s.tx = some s.mode
  /-- R25: no tick-local value survives between steps -/
  scratchEmpty : s.scratch = {}
  /-- R145: the environment's operands are within their widths -/
  pendingFits : ∀ x ∈ s.pending, x.wf s.cfg = true

end Sys2Proof.Machine
end

