-- ==== Sys2Proof/Certificates/Slice0/Obligations.lean ====
section
/-! DEFINITION. The statements for the provers. Each docstring names the rule of spec/ it formalises; where it rests on a
decision of the spec (92_eei_decisions.md) or on a choice of the model, it names the decision and the log entry. -/

open Sys2Proof Sys2Proof.Machine

/-! ## Encoding (30_encoding.md) -/

/-- Decoding what the encoder writes gives the operation back, whatever follows it: for all eleven command rows (section
2), for both status rows, and no tick phase has an encoding. That an ignored byte is none of the ten is part of its
well-formedness. The byte values are decisions D15 and D16 (log 18); the statement holds for every choice of them. -/
def Obligations.DecodeInvertsEncode : Prop :=
  ∀ (cfg : Cfg) (i : Instr) (rest : List Byte), cfg.wf = true → i.wf cfg = true →
    (i.format = .cmd → decode cfg (encode cfg i ++ rest) = .ok (i, rest)) ∧
    (i.format = .sts → decodeStatus cfg (encode cfg i ++ rest) = .ok (i, rest)) ∧
    (i.format = .phase → encode cfg i = [])

/-- Every byte decodes to exactly one command row, whose encoding is that byte: no illegal and no reserved encoding exists
(section 3). -/
def Obligations.EveryByteIsOneCommand : Prop :=
  ∀ (cfg : Cfg) (b : Byte) (rest : List Byte), cfg.wf = true →
    ∃ i, decode cfg (b :: rest) = .ok (i, rest) ∧ i.format = .cmd ∧ i.wf cfg = true ∧
      encode cfg i = [b] ∧
      ∀ j : Instr, j.format = .cmd → j.wf cfg = true → encode cfg j = [b] → j = i

/-- "the other 246 values" of the command table (section 2) are ignored, whatever the ten command bytes are. -/
def Obligations.TwoHundredFortySixBytesAreIgnored : Prop :=
  ∀ cfg : Cfg, cfg.wf = true →
    ((List.range 256).filter fun n =>
      decide (decodeCmd cfg (BitVec.ofNat 8 n) = .cmdIgnored (BitVec.ofNat 8 n))).length = 246

/-- The words of all thirteen bit-encoded rows of the opcode table, written out from its encoding column: each of the
eleven command words, with two bytes for the ignored row, decodes to its row as a bare table word, and each of the two
status words decodes to its row in the outbound direction. The byte values are decisions D15 and D16 (log 18); that a bare
word is read as an inbound byte, so that 0x41 is CMD.FORCE_AUTO and not NOTIFY.AUTO, is the model's choice (log 5). -/
def Obligations.TableWordsDecode : Prop :=
  decodeTableWord 8 0b01000001 = some .cmdForceAuto ∧
  decodeTableWord 8 0b01001101 = some .cmdForceManual ∧
  decodeTableWord 8 0b01010011 = some .cmdStraight ∧
  decodeTableWord 8 0b01101100 = some .cmdSoftLeft ∧
  decodeTableWord 8 0b01110010 = some .cmdSoftRight ∧
  decodeTableWord 8 0b01001100 = some .cmdHardLeft ∧
  decodeTableWord 8 0b01010010 = some .cmdHardRight ∧
  decodeTableWord 8 0b01000110 = some .cmdForward ∧
  decodeTableWord 8 0b01000010 = some .cmdBackward ∧
  decodeTableWord 8 0b01001110 = some .cmdNeutral ∧
  decodeTableWord 8 0b00001010 = some (.cmdIgnored 0x0A) ∧
  decodeTableWord 8 0b11111111 = some (.cmdIgnored 0xFF) ∧
  decodeStatus Cfg.default [0b01000001#8] = .ok (.notifyAuto, []) ∧
  decodeStatus Cfg.default [0b01001101#8] = .ok (.notifyManual, [])

/-- The numeric codes of the channels, the modes, the symbols and the drive states (section 4; the codes are decision
D26), each code naming its member back, and the codes that "never occur" naming none. -/
def Obligations.EnumerationCodes : Prop :=
  (Chan.steering.code = 0 ∧ Chan.drive.code = 1 ∧ Chan.modeSelect.code = 2) ∧
  (Mode.manual.code = 0 ∧ Mode.autonomous.code = 1) ∧
  (SteerSym.straight.code = 0 ∧ SteerSym.softLeft.code = 1 ∧ SteerSym.softRight.code = 2 ∧
    SteerSym.hardLeft.code = 3 ∧ SteerSym.hardRight.code = 4) ∧
  (DriveSym.neutral.code = 0 ∧ DriveSym.forward.code = 1 ∧ DriveSym.backward.code = 2) ∧
  (DriveState.dNeutral.code = 0 ∧ DriveState.dForward.code = 1 ∧ DriveState.dReverse.code = 2) ∧
  (∀ c : Chan, Chan.ofCode c.code = some c) ∧ Chan.ofCode 3 = none ∧
  (∀ m : Mode, Mode.ofCode m.code = m) ∧
  (∀ y : SteerSym, SteerSym.ofCode y.code = some y) ∧
  (∀ v : BitVec 3, SteerSym.ofCode v = none ↔ 5 ≤ v.toNat) ∧
  (∀ y : DriveSym, DriveSym.ofCode y.code = some y) ∧ DriveSym.ofCode 3 = none ∧
  (∀ d : DriveState, DriveState.ofCode d.code = some d) ∧ DriveState.ofCode 3 = none ∧
  (∀ y : DriveSym, (driveAuto y).code = y.code)

/-! ## Reset (10_state.md section 7) -/

/-- The state after reset under every configuration, every field of it. The source states the ring contents and the mode;
the other registers are the spec's decisions D6, D7, D9, D12, D23, D28, D31 (log 12) and `start = 0` is the model's choice
(log 10). The record sequence is empty (log 7). The model's own fields hold the configuration (log 1), an empty latch (log
6) and an empty schedule (log 3); that `State.reset` takes the default configuration is the model's choice (log 2). -/
def Obligations.ResetState : Prop :=
  ∀ cfg : Cfg,
    (∀ c, (State.resetWith cfg).ch c =
      { raw := cfg.rawResetUs, start := 0, armed := false, level := false }) ∧
    (∀ i : Fin 5, (State.resetWith cfg).ringSteer[i] = cfg.neutralUs ∧
      (State.resetWith cfg).ringDrive[i] = cfg.neutralUs) ∧
    (State.resetWith cfg).idx = 0 ∧ (State.resetWith cfg).mode = .manual ∧
    (State.resetWith cfg).prevSel = cfg.prevResetUs ∧
    (State.resetWith cfg).steerSym = .straight ∧ (State.resetWith cfg).driveSym = .neutral ∧
    (State.resetWith cfg).lastTickMs = 0 ∧ (State.resetWith cfg).PortsShow none ∧
    (State.resetWith cfg).rxq = [] ∧ (State.resetWith cfg).observe = ([], []) ∧
    (State.resetWith cfg).cfg = cfg ∧
    (State.resetWith cfg).scratch = { snap := none, filt := none, out := none } ∧
    (State.resetWith cfg).pending = [] ∧
    State.reset = State.resetWith Cfg.default

/-- The reset state under every well-formed configuration meets the invariant of 10_state.md section 7. -/
def Obligations.ResetMeetsInvariant : Prop :=
  (∀ cfg : Cfg, cfg.wf = true → (State.resetWith cfg).Inv) ∧ State.reset.Inv

/-! ## The machine as a whole -/

/-- Every step keeps the invariant of 10_state.md section 7: widths, output ranges, alternating status bytes that end in
the present mode. A record is the port form of values in range (log 9). The last two clauses of `State.Inv` are about the
model's own fields (log 6, log 3). -/
def Obligations.StepKeepsInvariant : Prop :=
  ∀ s t : State, s.Inv → step s = .next t → t.Inv

/-- Every run of admitted events completes, from every good state: no input stops the block, and every state it passes is
good (60_exceptions.md section 1, 10_state.md section 7). -/
def Obligations.AdmittedRunsComplete : Prop :=
  ∀ (s : State) (es : List Event), s.Inv → (∀ e ∈ es, e.wf s.cfg = true) →
    ∃ t, runEvents es s = .next t ∧ t.Inv

/-- Rule R145: no operation faults; an operation whose configuration is well formed and whose operands are within their
widths completes; the only refusals are an ill-formed configuration and an operand outside its width. -/
def Obligations.OnlyTheBoundaryRefuses : Prop :=
  ∀ (i : Instr) (s : State),
    (∀ r, exec i s ≠ .fault r) ∧
    (s.cfg.wf = true → i.wf s.cfg = true → ∃ t, exec i s = .next t) ∧
    (s.cfg.wf = false → exec i s = .refused .illFormedConfig) ∧
    (∀ r, exec i s = .refused r → s.cfg.wf = true → r = .operandOutOfWidth ∧ i.wf s.cfg = false)

/-- A step delivers the head of `pending`: an event runs its operation, a byte the operation it decodes to, and an empty
schedule leaves the block polling (log 3, log 4). -/
def Obligations.StepRunsTheDecodedOperation : Prop :=
  (∀ (s : State) (e : Event) (rest : List Stimulus), s.pending = .event e :: rest →
    step s = exec e.toInstr { s with pending := rest }) ∧
  (∀ (s : State) (b : Byte) (rest : List Stimulus) (i : Instr), s.pending = .command b :: rest →
    decode s.cfg [b] = .ok (i, []) → step s = exec i { s with pending := rest }) ∧
  (∀ s : State, s.pending = [] → s.cfg.wf = true → step s = .next s)

/-- A run of the host's machine over a loaded schedule is the run of its events in their order (20_memory.md section 3,
sequential consistency over the interleaving). -/
def Obligations.HostRunIsTheRunOfEvents : Prop :=
  ∀ (s t : State) (es : List Event), s.pending = [] → runEvents es s = .next t →
    Host.Core.run Sys2Proof.core es.length (s.load es) = .next t

/-- The configuration is "fixed before reset and never written afterwards" (00_scope.md section 4), and no operation
touches the environment's schedule. -/
def Obligations.ConfigurationIsNeverWritten : Prop :=
  ∀ (i : Instr) (s t : State), exec i s = .next t → t.cfg = s.cfg ∧ t.pending = s.pending

/-- Ownership (20_memory.md section 3): an edge writes the capture group only and reads nothing else of the state; every
other operation leaves the capture group; and the main context reads of it the raw widths only. -/
def Obligations.CaptureGroupOwnership : Prop :=
  (∀ (i : Instr) (s t : State), exec i s = .next t →
    (∀ c now, i ≠ .edgeRise c now ∧ i ≠ .edgeFall c now) → t.chans = s.chans) ∧
  (∀ (e : Event) (c : Chan) (s t : State), e.isEdgeOf c = true → exec e.toInstr s = .next t →
    t = { s with chans := t.chans } ∧
    ∀ s' t' : State, s'.cfg = s.cfg → s'.chans = s.chans → exec e.toInstr s' = .next t' →
      t'.chans = t.chans) ∧
  (∀ (i : Instr) (s t : State) (f : Channels), exec i s = .next t →
    (∀ c now, i ≠ .edgeRise c now ∧ i ≠ .edgeFall c now) →
    (∀ c, (f.get c).raw = (s.ch c).raw) →
    exec i { s with chans := f } = .next { t with chans := f })

/-- What the block has shown it never takes back: `tx` and the record sequence only grow (00_scope.md section 6,
10_state.md section 4). -/
def Obligations.ObservationOnlyGrows : Prop :=
  ∀ (i : Instr) (s t : State), exec i s = .next t →
    (∃ bs, t.tx = s.tx ++ bs) ∧
    (∃ rs, t.records = s.records ++ rs ∧ rs.length ≤ 1) ∧
    (∀ c now, i = .edgeRise c now ∨ i = .edgeFall c now → t.observe = s.observe) ∧
    (∀ b, i = .rxPush b → t.observe = s.observe)

/-- Every sequence of counter samples is the sampling of some non-decreasing true time, so the constraint of
60_exceptions.md section 5 excludes no event sequence and the model checks none (decision D35, log 21). -/
def Obligations.EverySampleSequenceHasTrueTimes : Prop :=
  ∀ (w : Nat) (samples : List Nat), (∀ v ∈ samples, v < 2 ^ w) → ∃ times, TrueTimes w samples times

/-! ## Pulse capture (40_pulse_capture.md) -/

/-- Rule R66: a rising edge stamps the start and arms its channel, whatever the channel held; nothing else changes. -/
def Obligations.EdgeRiseArmsItsChannel : Prop :=
  ∀ (c : Chan) (now : Nat) (s : State), s.cfg.wf = true → now < 2 ^ s.cfg.wUs →
    ∃ t, exec (.edgeRise c now) s = .next t ∧
      t.ch c = { raw := (s.ch c).raw, start := now, armed := true, level := true } ∧
      (∀ d, d ≠ c → t.ch d = s.ch d) ∧ t = { s with chans := t.chans }

/-- Rule R67: a falling edge publishes the wrap-safe elapsed time of an armed channel and clears the marker; unarmed, only
`level` changes. A true elapsed time below the wrap is published as it is. -/
def Obligations.EdgeFallPublishesElapsedTime : Prop :=
  ∀ (c : Chan) (now : Nat) (s : State), s.cfg.wf = true → now < 2 ^ s.cfg.wUs →
    ∃ t, exec (.edgeFall c now) s = .next t ∧
      ((s.ch c).armed = true → t.ch c =
        { raw := (now + 2 ^ s.cfg.wUs - (s.ch c).start) % 2 ^ s.cfg.wUs
          start := (s.ch c).start, armed := false, level := false }) ∧
      ((s.ch c).armed = true → ∀ d, d < 2 ^ s.cfg.wUs → (s.ch c).start < 2 ^ s.cfg.wUs →
        now = ((s.ch c).start + d) % 2 ^ s.cfg.wUs → (t.ch c).raw = d) ∧
      ((s.ch c).armed = false → t.ch c =
        { raw := (s.ch c).raw, start := (s.ch c).start, armed := false, level := false }) ∧
      (∀ d, d ≠ c → t.ch d = s.ch d) ∧ t = { s with chans := t.chans }

/-- Edges of different channels commute as state transformers (40_pulse_capture.md section 3, isolation). -/
def Obligations.EdgesOfDifferentChannelsCommute : Prop :=
  ∀ (e f : Event) (c d : Chan) (s t : State), e.isEdgeOf c = true → f.isEdgeOf d = true → c ≠ d →
    runEvents [e, f] s = .next t → runEvents [f, e] s = .next t

/-- In every run, what a channel's entry becomes is decided by the edge events of that channel alone, in their order
(40_pulse_capture.md section 3, isolation and pairing). -/
def Obligations.OwnEventsDecideAChannel : Prop :=
  ∀ (s t : State) (es : List Event) (c : Chan), runEvents es s = .next t →
    t.ch c = (es.filter (Event.isEdgeOf c)).foldl (Channel.after s.cfg.wUs) (s.ch c)

/-- The pairing law (40_pulse_capture.md section 3): a falling edge publishes exactly when the channel's event before it
is a rising edge, measured from that one; the marker is set exactly when the channel's last event was a rising edge. -/
def Obligations.CapturePairsTheLastRise : Prop :=
  ∀ (s t : State) (es : List Event) (c : Chan) (own : List Event), runEvents es s = .next t →
    es.filter (Event.isEdgeOf c) = own →
    (∀ before t0, own = before ++ [.edgeRise c t0] → (t.ch c).armed = true ∧ (t.ch c).start = t0) ∧
    (∀ before t1, own = before ++ [.edgeFall c t1] → (t.ch c).armed = false) ∧
    (∀ before t0 t1, own = before ++ [.edgeRise c t0, .edgeFall c t1] →
      (t.ch c).raw = (t1 + 2 ^ s.cfg.wUs - t0) % 2 ^ s.cfg.wUs) ∧
    (∀ before t0 t1 u, own = before ++ [.edgeFall c t0, .edgeFall c t1] →
      runEvents (before ++ [.edgeFall c t0]) s = .next u → (t.ch c).raw = (u.ch c).raw) ∧
    (∀ t1, own = [.edgeFall c t1] → (s.ch c).armed = false → (t.ch c).raw = (s.ch c).raw)

/-- The wrap law (40_pulse_capture.md section 3): edges sampled at true times `T1 ≤ T2`, with anything but an edge of the
channel between them, publish the true elapsed time modulo the wrap, exactly when it is below the wrap. -/
def Obligations.WrapSafeElapsedTime : Prop :=
  ∀ (c : Chan) (T1 T2 : Nat) (between : List Event) (s : State), s.Inv → T1 ≤ T2 →
    (∀ e ∈ between, e.wf s.cfg = true ∧ e.isEdgeOf c = false) →
    ∃ t, runEvents (.edgeRise c (T1 % 2 ^ s.cfg.wUs) ::
        between ++ [.edgeFall c (T2 % 2 ^ s.cfg.wUs)]) s = .next t ∧
      (t.ch c).raw = (T2 - T1) % 2 ^ s.cfg.wUs ∧
      ((t.ch c).raw = T2 - T1 ↔ T2 - T1 < 2 ^ s.cfg.wUs)

/-! ## Snapshot and filter (20_memory.md section 3, 41_sample_filter.md) -/

/-- The snapshot copies the three raw widths of one instant and writes nothing (20_memory.md section 3, decision D29).
Where the copies stand when the phase is run alone is the model's choice (log 6). -/
def Obligations.SnapCopiesTheRawWidths : Prop :=
  ∀ s : State, s.cfg.wf = true →
    exec .snap s = .next { s with scratch := { s.scratch with
      snap := some ⟨(s.ch .steering).raw, (s.ch .drive).raw, (s.ch .modeSelect).raw⟩ } }

/-- FILT.UPDATE (41_sample_filter.md section 2; the exact sum is decision D10): both rings take their sample at the shared
position, the position advances once, and the means returned are over the slots as just written. Where they stand when the
phase is run alone is the model's choice (log 6). -/
def Obligations.FilterUpdateInsertsAndAverages : Prop :=
  ∀ (s0 s1 : Nat) (s : State), s.cfg.wf = true → s0 < 2 ^ s.cfg.wUs → s1 < 2 ^ s.cfg.wUs →
    ∃ t, exec (.filtUpdate s0 s1) s = .next t ∧
      t.ringSteer[s.idx] = s0 ∧ t.ringDrive[s.idx] = s1 ∧
      (∀ j : Fin 5, j ≠ s.idx →
        t.ringSteer[j] = s.ringSteer[j] ∧ t.ringDrive[j] = s.ringDrive[j]) ∧
      t.idx.val = (s.idx.val + 1) % 5 ∧
      (∃ f, t.scratch = { s.scratch with filt := some f } ∧
        f.fSteer =
          (t.ringSteer[0] + t.ringSteer[1] + t.ringSteer[2] + t.ringSteer[3] + t.ringSteer[4]) / 5 ∧
        f.fDrive =
          (t.ringDrive[0] + t.ringDrive[1] + t.ringDrive[2] + t.ringDrive[3] + t.ringDrive[4]) / 5) ∧
      t = { s with
        ringSteer := t.ringSteer, ringDrive := t.ringDrive, idx := t.idx, scratch := t.scratch }

/-- The window property (41_sample_filter.md section 3): after any inserted samples, from neutral rings at any position,
the filtered value is the truncated mean of the last five, the slots not yet overwritten counting as neutral. -/
def Obligations.FilterIsTheMeanOfTheLastFive : Prop :=
  ∀ (s : State) (vs : List (Nat × Nat)), s.cfg.wf = true → vs ≠ [] →
    s.ringSteer = Vector.replicate 5 s.cfg.neutralUs →
    s.ringDrive = Vector.replicate 5 s.cfg.neutralUs →
    (∀ v ∈ vs, v.1 < 2 ^ s.cfg.wUs ∧ v.2 < 2 ^ s.cfg.wUs) →
    ∃ t, runInstrs (vs.map fun v => .filtUpdate v.1 v.2) s = .next t ∧
      t.scratch.filt = some
        ⟨(((vs.map Prod.fst).reverse ++ List.replicate 5 s.cfg.neutralUs).take 5).sum / 5,
         (((vs.map Prod.snd).reverse ++ List.replicate 5 s.cfg.neutralUs).take 5).sum / 5⟩ ∧
      t.idx.val = (s.idx.val + vs.length) % 5

/-- The mean lies between any bounds of the slots, and five equal samples give that sample exactly (41_sample_filter.md
section 3). -/
def Obligations.FilterIsBoundedAndConverges : Prop :=
  (∀ (s t : State) (s0 s1 lo hi : Nat) (f : Filtered), exec (.filtUpdate s0 s1) s = .next t →
    t.scratch.filt = some f →
    ((∀ j : Fin 5, lo ≤ t.ringSteer[j] ∧ t.ringSteer[j] ≤ hi) → lo ≤ f.fSteer ∧ f.fSteer ≤ hi) ∧
    ((∀ j : Fin 5, lo ≤ t.ringDrive[j] ∧ t.ringDrive[j] ≤ hi) → lo ≤ f.fDrive ∧ f.fDrive ≤ hi)) ∧
  (∀ (s : State) (v w : Nat), s.cfg.wf = true → v < 2 ^ s.cfg.wUs → w < 2 ^ s.cfg.wUs →
    ∃ t, runInstrs (List.replicate 5 (.filtUpdate v w)) s = .next t ∧
      t.scratch.filt = some ⟨v, w⟩)

/-- The running-sum form (41_sample_filter.md section 3, equivalent implementation): subtracting the slot to be
overwritten and adding the sample keeps the exact sum of the slots, which fits `W_US + 3` bits, so it gives the same
means. -/
def Obligations.RunningSumGivesTheSameMean : Prop :=
  ∀ (s t : State) (s0 s1 sumSteer sumDrive : Nat), s.Inv → exec (.filtUpdate s0 s1) s = .next t →
    sumSteer = s.ringSteer.toList.sum → sumDrive = s.ringDrive.toList.sum →
    t.ringSteer.toList.sum = sumSteer - s.ringSteer[s.idx] + s0 ∧
    t.ringDrive.toList.sum = sumDrive - s.ringDrive[s.idx] + s1 ∧
    t.scratch.filt = some ⟨(sumSteer - s.ringSteer[s.idx] + s0) / 5,
      (sumDrive - s.ringDrive[s.idx] + s1) / 5⟩ ∧
    t.ringSteer.toList.sum < 2 ^ (s.cfg.wUs + 3) ∧ t.ringDrive.toList.sum < 2 ^ (s.cfg.wUs + 3)

/-! ## Mode controller (42_mode_controller.md) -/

/-- Rule R86: the crossing predicate, its symmetry, its reading as a change of side, and its three examples. -/
def Obligations.CrossingIsAChangeOfSide : Prop :=
  (∀ (cfg : Cfg) (p q : Nat),
    (crossing cfg p q = true ↔
      (p ≤ cfg.modeThreshUs ∧ cfg.modeThreshUs < q) ∨ (cfg.modeThreshUs < p ∧ q ≤ cfg.modeThreshUs)) ∧
    crossing cfg p q = crossing cfg q p ∧
    (crossing cfg p q = true ↔ decide (cfg.modeThreshUs < p) ≠ decide (cfg.modeThreshUs < q))) ∧
  crossing Cfg.default 1500 1501 = true ∧ crossing Cfg.default 1499 1500 = false ∧
  crossing Cfg.default 1500 1500 = false

/-- Rule R87: a crossing toggles the mode in either direction with the notification of the new mode, and `prev_sel` takes
the sample always; an executed tick does exactly this once, with the raw mode-select width. -/
def Obligations.ModeCrossingToggles : Prop :=
  (∀ (s2 : Nat) (s : State), s.cfg.wf = true → s2 < 2 ^ s.cfg.wUs →
    ((crossing s.cfg s.prevSel s2 = true ∧ s.mode = .manual → exec (.modeXing s2) s = .next { s with
        mode := .autonomous, tx := s.tx ++ [s.cfg.notifyAuto], prevSel := s2 }) ∧
     (crossing s.cfg s.prevSel s2 = true ∧ s.mode = .autonomous → exec (.modeXing s2) s = .next { s with
        mode := .manual, tx := s.tx ++ [s.cfg.notifyManual], prevSel := s2 }) ∧
     (crossing s.cfg s.prevSel s2 = false →
        exec (.modeXing s2) s = .next { s with prevSel := s2 }))) ∧
  (∀ (now phase : Nat) (s t u : State), gateOpen s.cfg s.lastTickMs now = true → s.rxq = [] →
    exec (.tick now phase) s = .next t → exec (.modeXing (s.ch .modeSelect).raw) s = .next u →
    t.mode = u.mode ∧ t.tx = u.tx ∧ t.prevSel = u.prevSel)

/-- Rules R88 and R89: a force command enters its mode with one notification, or does nothing at all when already there.
-/
def Obligations.ForceCommandsEnterOnce : Prop :=
  ∀ s : State, s.cfg.wf = true →
    decodeCmd s.cfg s.cfg.cmdForceAuto = .cmdForceAuto ∧
    (s.mode = .manual → exec .cmdForceAuto s = .next { s with
      mode := .autonomous, tx := s.tx ++ [s.cfg.notifyAuto] }) ∧
    (s.mode = .autonomous → exec .cmdForceAuto s = .next s) ∧
    decodeCmd s.cfg s.cfg.cmdForceManual = .cmdForceManual ∧
    (s.mode = .autonomous → exec .cmdForceManual s = .next { s with
      mode := .manual, tx := s.tx ++ [s.cfg.notifyManual] }) ∧
    (s.mode = .manual → exec .cmdForceManual s = .next s)

/-- NOTIFY (42_mode_controller.md section 3): it appends the status byte of its mode and changes nothing else; and every
operation but a bare status row emits exactly one status byte for each change of mode it makes, at the moment of the
change: the bytes alternate from the mode before it and end in the mode after it. That a status row can be run by itself
is the model's choice (log 4). -/
def Obligations.NotificationsFollowModeChanges : Prop :=
  (∀ s : State, s.cfg.wf = true →
    exec .notifyAuto s = .next { s with tx := s.tx ++ [s.cfg.notifyAuto] } ∧
    exec .notifyManual s = .next { s with tx := s.tx ++ [s.cfg.notifyManual] }) ∧
  (∀ (i : Instr) (s t : State), i.format ≠ .sts → exec i s = .next t →
    ∃ bs, t.tx = s.tx ++ bs ∧ streamMode s.cfg s.mode bs = some t.mode)

/-- No level re-trigger (42_mode_controller.md section 4): over any mode-select samples, MODE.XING toggles and notifies
once for each consecutive pair that changes side, and at no other time. -/
def Obligations.TogglesCountSideChanges : Prop :=
  ∀ (s : State) (vs : List Nat), s.cfg.wf = true → (∀ v ∈ vs, v < 2 ^ s.cfg.wUs) →
    ∃ t, runInstrs (vs.map .modeXing) s = .next t ∧
      t.tx.length = s.tx.length + sideChanges s.cfg.modeThreshUs s.prevSel vs ∧
      (t.mode = s.mode ↔ sideChanges s.cfg.modeThreshUs s.prevSel vs % 2 = 0)

/-- An absent mode-select signal never changes the mode (42_mode_controller.md section 4): in every run from reset with no
edge on that channel and no force-Autonomous byte, the mode stays Manual and nothing is sent. -/
def Obligations.AbsentModeSignalStaysManual : Prop :=
  ∀ (cfg : Cfg) (es : List Event) (t : State), cfg.wf = true →
    (∀ e ∈ es, e.isEdgeOf .modeSelect = false) → cfg.cmdForceAuto ∉ pushedBytes es →
    runEvents es (State.resetWith cfg) = .next t → t.mode = .manual ∧ t.tx = []

/-- The start-up toggle and its mirror case (70_reset_and_hazards.md section 1): with the reset value of `prev_sel` on one
side of the threshold (decision D7, log 12), the first tick after a first mode-select capture on the other side enters
Autonomous with one notification. That this tick runs at any sample of at least `TICK_MS` rests on `last_tick_ms` being 0
at reset and on the gate's form (decision D12, log 12 and log 16). -/
def Obligations.StartupToggleEntersAutonomous : Prop :=
  ∀ (cfg : Cfg) (t0 w m p : Nat), cfg.wf = true →
    ((cfg.prevResetUs ≤ cfg.modeThreshUs ∧ cfg.modeThreshUs < w) ∨
     (cfg.modeThreshUs < cfg.prevResetUs ∧ w ≤ cfg.modeThreshUs)) →
    t0 < 2 ^ cfg.wUs → w < 2 ^ cfg.wUs →
    m < 2 ^ cfg.wMs → p < 2 ^ cfg.wMs → cfg.tickMs ≤ m →
    ∃ t, runEvents (expandLine cfg (.pulse .modeSelect t0 w) ++ [.tick m p]) (State.resetWith cfg) = .next t ∧
      t.mode = .autonomous ∧ t.tx = [cfg.notifyAuto]

/-! ## Command interpreter (43_command_interpreter.md) -/

/-- Rules R99 to R103: each steering command sets its symbol in Autonomous and does nothing in Manual, and its byte
decodes to it. -/
def Obligations.SteeringCommandsAreGated : Prop :=
  ∀ s : State, s.cfg.wf = true →
    (s.mode = .manual →
      exec .cmdStraight s = .next s ∧ exec .cmdSoftLeft s = .next s ∧ exec .cmdSoftRight s = .next s ∧
      exec .cmdHardLeft s = .next s ∧ exec .cmdHardRight s = .next s) ∧
    (s.mode = .autonomous →
      exec .cmdStraight s = .next { s with steerSym := .straight } ∧
      exec .cmdSoftLeft s = .next { s with steerSym := .softLeft } ∧
      exec .cmdSoftRight s = .next { s with steerSym := .softRight } ∧
      exec .cmdHardLeft s = .next { s with steerSym := .hardLeft } ∧
      exec .cmdHardRight s = .next { s with steerSym := .hardRight }) ∧
    decodeCmd s.cfg s.cfg.cmdStraight = .cmdStraight ∧
    decodeCmd s.cfg s.cfg.cmdSoftLeft = .cmdSoftLeft ∧
    decodeCmd s.cfg s.cfg.cmdSoftRight = .cmdSoftRight ∧
    decodeCmd s.cfg s.cfg.cmdHardLeft = .cmdHardLeft ∧
    decodeCmd s.cfg s.cfg.cmdHardRight = .cmdHardRight

/-- Rules R104 to R106: each drive command sets its symbol in Autonomous and does nothing in Manual, writes no output, and
its byte decodes to it. -/
def Obligations.DriveCommandsAreGated : Prop :=
  ∀ s : State, s.cfg.wf = true →
    (s.mode = .manual →
      exec .cmdForward s = .next s ∧ exec .cmdBackward s = .next s ∧ exec .cmdNeutral s = .next s) ∧
    (s.mode = .autonomous →
      exec .cmdForward s = .next { s with driveSym := .forward } ∧
      exec .cmdBackward s = .next { s with driveSym := .backward } ∧
      exec .cmdNeutral s = .next { s with driveSym := .neutral }) ∧
    decodeCmd s.cfg s.cfg.cmdForward = .cmdForward ∧
    decodeCmd s.cfg s.cfg.cmdBackward = .cmdBackward ∧
    decodeCmd s.cfg s.cfg.cmdNeutral = .cmdNeutral

/-- The streams (20_memory.md section 4, 43_command_interpreter.md section 2): a received byte is appended at the young
end of the queue (unbounded by decision D31, log 19), pushed bytes queue in arrival order until a tick executes, and the
next executed tick empties the queue. -/
def Obligations.QueueIsFirstInFirstOut : Prop :=
  (∀ (b : Byte) (s : State), s.cfg.wf = true →
    exec (.rxPush b) s = .next { s with rxq := s.rxq ++ [b] }) ∧
  (∀ (s t : State) (es : List Event), (∀ e ∈ es, e.isTick = false) → runEvents es s = .next t →
    t.rxq = s.rxq ++ pushedBytes es) ∧
  (∀ (now phase : Nat) (s t : State), gateOpen s.cfg s.lastTickMs now = true →
    exec (.tick now phase) s = .next t → t.rxq = [])

/-- Rule R107: a byte that equals none of the ten decodes to CMD.IGNORED, which changes nothing in either mode. -/
def Obligations.UnrecognisedBytesChangeNothing : Prop :=
  ∀ (b : Byte) (s : State), s.cfg.wf = true →
    (b ∉ s.cfg.cmdBytes → decodeCmd s.cfg b = .cmdIgnored b) ∧ exec (.cmdIgnored b) s = .next s

/-- Rule R97: the drain runs, oldest byte first, the operation each queued byte decodes to, and leaves the queue empty. -/
def Obligations.DrainRunsEveryByteInOrder : Prop :=
  ∀ s : State, s.cfg.wf = true →
    ∃ t, exec .cmdDrain s = .next t ∧ t.rxq = [] ∧
      runInstrs (s.rxq.map (decodeCmd s.cfg)) { s with rxq := [] } = .next t

/-- Rule R109: at each byte of a drain the gate is the mode that MODE.XING and the bytes before it left. What follows a
byte runs on what that byte left; a steering or drive byte met in Manual is consumed and forgotten; the force bytes are
not gated. -/
def Obligations.GatingFollowsTheModeAtEachByte : Prop :=
  ∀ (s u : State) (before after : List Byte) (b : Byte), s.rxq = before ++ b :: after →
    exec .cmdDrain { s with rxq := before } = .next u →
    ∃ v, exec (decodeCmd s.cfg b) u = .next v ∧
      exec .cmdDrain s = exec .cmdDrain { v with rxq := after } ∧
      ((steerOf (decodeCmd s.cfg b)).isSome ∨ (driveOf (decodeCmd s.cfg b)).isSome →
        u.mode = .manual → v = u) ∧
      (∀ y, steerOf (decodeCmd s.cfg b) = some y → u.mode = .autonomous → v = { u with steerSym := y }) ∧
      (∀ y, driveOf (decodeCmd s.cfg b) = some y → u.mode = .autonomous → v = { u with driveSym := y }) ∧
      (decodeCmd s.cfg b = .cmdForceAuto → v.mode = .autonomous) ∧
      (decodeCmd s.cfg b = .cmdForceManual → v.mode = .manual)

/-- Persistence (43_command_interpreter.md section 3, decision D23, log 23): an operation that changes an intent register
is a command that carries the new symbol, run by itself in Autonomous or met in the queue of a drain or a tick. -/
def Obligations.IntentChangesOnlyByItsCommands : Prop :=
  ∀ (i : Instr) (s t : State), exec i s = .next t →
    (t.steerSym ≠ s.steerSym →
      (steerOf i = some t.steerSym ∧ s.mode = .autonomous) ∨
      ((i = .cmdDrain ∨ ∃ m p, i = .tick m p) ∧
        ∃ b ∈ s.rxq, steerOf (decodeCmd s.cfg b) = some t.steerSym)) ∧
    (t.driveSym ≠ s.driveSym →
      (driveOf i = some t.driveSym ∧ s.mode = .autonomous) ∨
      ((i = .cmdDrain ∨ ∃ m p, i = .tick m p) ∧
        ∃ b ∈ s.rxq, driveOf (decodeCmd s.cfg b) = some t.driveSym))

/-- A drain that stays in Autonomous leaves the symbol of the last steering byte and of the last drive byte, and touches
no output (43_command_interpreter.md section 3, one write per tick, decision D24, log 28). -/
def Obligations.LastCommandOfADrainWins : Prop :=
  ∀ s : State, s.cfg.wf = true → s.mode = .autonomous → s.cfg.cmdForceManual ∉ s.rxq →
    exec .cmdDrain s = .next { s with
      rxq := []
      steerSym := ((s.rxq.filterMap fun b => steerOf (decodeCmd s.cfg b)).getLast?).getD s.steerSym
      driveSym := ((s.rxq.filterMap fun b => driveOf (decodeCmd s.cfg b)).getLast?).getD s.driveSym }

/-! ## Trace notation (30_encoding.md section 6, decision D40) -/

/-- The trace notation: `PULSE c @t w` publishes the width `w` on its channel, across the wrap too; `RXS` queues its bytes
in order; and the encoding of a trace is the bytes of its `RX` lines. -/
def Obligations.TraceLinesStandForTheirEvents : Prop :=
  (∀ (c : Chan) (t w : Nat) (s : State), s.cfg.wf = true → (TraceLine.pulse c t w).wf s.cfg = true →
    ∃ u, runEvents (expandLine s.cfg (.pulse c t w)) s = .next u ∧
      u.ch c = { raw := w, start := t, armed := false, level := false } ∧
      (∀ d, d ≠ c → u.ch d = s.ch d) ∧ u = { s with chans := u.chans }) ∧
  (∀ (bs : List Byte) (s : State), s.cfg.wf = true →
    runEvents (expandLine s.cfg (.rxs bs)) s = .next { s with rxq := s.rxq ++ bs }) ∧
  (∀ (cfg : Cfg) (ls : List TraceLine), encodeTrace cfg ls = pushedBytes (expandTrace cfg ls))

/-! ## Output mapper (44_output_mapper.md) -/

/-- OUT.MAP (44_output_mapper.md section 4) writes no register, and routes by the mode: the filtered values in Manual, the
intent in Autonomous, one pulse table and one indicator decision for both. The other clauses are the rows of the tables it
reads: the angle of each steering symbol (decision D17, log 17), the drive state of each drive symbol, and the pulse of
each drive state (decision D19, log 17). Where the tuple stands when the phase is run alone is the model's choice (log 6).
-/
def Obligations.OutputMapRoutesByMode : Prop :=
  (∀ (fSteer fDrive phase : Nat) (s : State), s.cfg.wf = true → fSteer < 2 ^ s.cfg.wUs →
    fDrive < 2 ^ s.cfg.wUs → phase < 2 ^ s.cfg.wMs →
    ∃ r, exec (.outMap fSteer fDrive phase) s =
        .next { s with scratch := { s.scratch with out := some r } } ∧
      (s.mode = .manual →
        r.angle = steerManual s.cfg fSteer ∧ r.pulse = drivePulse s.cfg (driveManual s.cfg fDrive) ∧
        (r.ledL, r.ledR) = indicators s.cfg r.angle (driveManual s.cfg fDrive) phase) ∧
      (s.mode = .autonomous →
        r.angle = steerAuto s.cfg s.steerSym ∧ r.pulse = drivePulse s.cfg (driveAuto s.driveSym) ∧
        (r.ledL, r.ledR) = indicators s.cfg r.angle (driveAuto s.driveSym) phase)) ∧
  (∀ cfg : Cfg,
    steerAuto cfg .straight = cfg.angleStraight ∧ steerAuto cfg .softLeft = cfg.angleSoftLeft ∧
    steerAuto cfg .softRight = cfg.angleSoftRight ∧ steerAuto cfg .hardLeft = cfg.angleHardLeft ∧
    steerAuto cfg .hardRight = cfg.angleHardRight) ∧
  (driveAuto .forward = .dForward ∧ driveAuto .backward = .dReverse ∧ driveAuto .neutral = .dNeutral) ∧
  (∀ cfg : Cfg,
    drivePulse cfg .dForward = cfg.driveFwdUs ∧ drivePulse cfg .dReverse = cfg.driveRevUs ∧
    drivePulse cfg .dNeutral = cfg.driveNeutralUs)

/-- The manual steering map (44_output_mapper.md section 2; truncation is decision D20, log 17): the affine map of the
clamped input, for which the output clamp never changes the value; it is increasing; and with the default configuration it
is `45 + (clamp f - 900) div 10`. -/
def Obligations.ManualSteeringIsAffineAndMonotone : Prop :=
  (∀ (cfg : Cfg) (f : Nat), cfg.wf = true →
    steerManual cfg f = cfg.steerOutMinDeg +
      ((min (max f cfg.steerInMinUs) cfg.steerInMaxUs - cfg.steerInMinUs) *
        (cfg.steerOutMaxDeg - cfg.steerOutMinDeg)) / (cfg.steerInMaxUs - cfg.steerInMinUs)) ∧
  (∀ (cfg : Cfg) (f g : Nat), cfg.wf = true → f ≤ g → steerManual cfg f ≤ steerManual cfg g) ∧
  (∀ cfg : Cfg, cfg.wf = true → steerManual cfg cfg.steerInMinUs = cfg.steerOutMinDeg ∧
    steerManual cfg cfg.steerInMaxUs = cfg.steerOutMaxDeg) ∧
  (∀ f : Nat, steerManual Cfg.default f = 45 + (min (max f 900) 1800 - 900) / 10)

/-- The manual drive decision and its pulse (44_output_mapper.md section 3; thresholds, strictness and pulses are
decisions D18 and D19, log 17): above the upper threshold forward, below the lower one reverse, neutral between, both ends
included. -/
def Obligations.ManualDriveIsTriState : Prop :=
  ∀ (cfg : Cfg) (f : Nat), cfg.wf = true →
    (cfg.driveFwdThreshUs < f → drivePulse cfg (driveManual cfg f) = cfg.driveFwdUs) ∧
    (f < cfg.driveRevThreshUs → drivePulse cfg (driveManual cfg f) = cfg.driveRevUs) ∧
    (cfg.driveRevThreshUs ≤ f ∧ f ≤ cfg.driveFwdThreshUs →
      drivePulse cfg (driveManual cfg f) = cfg.driveNeutralUs) ∧
    driveManual cfg 1900 = .dForward ∧ driveManual cfg cfg.neutralUs = .dNeutral

/-- Rules R125, R126 and R127: brake over turn over idle. A reverse drive lights both lamps whatever the angle and the
phase; otherwise a turn blinks its own side only, on in the first part of each period of the counter's value; otherwise
both are off. The last clauses are R125's corner cases. -/
def Obligations.BrakeOverTurnOverIdle : Prop :=
  (∀ (cfg : Cfg) (angle phase : Nat) (ds : DriveState), cfg.wf = true →
    (brake ds = true → indicators cfg angle ds phase = (true, true)) ∧
    (brake ds = false → turnLeft cfg angle = true →
      indicators cfg angle ds phase = (decide (phase % cfg.blinkPeriodMs < cfg.blinkOnMs), false)) ∧
    (brake ds = false → turnRight cfg angle = true →
      indicators cfg angle ds phase = (false, decide (phase % cfg.blinkPeriodMs < cfg.blinkOnMs))) ∧
    (brake ds = false → turnLeft cfg angle = false → turnRight cfg angle = false →
      indicators cfg angle ds phase = (false, false))) ∧
  (∀ (cfg : Cfg) (p : Nat), blinkOn cfg p = true ↔ p % cfg.blinkPeriodMs < cfg.blinkOnMs) ∧
  blinkOn Cfg.default 0 = true ∧ blinkOn Cfg.default 199 = true ∧ blinkOn Cfg.default 200 = false ∧
  blinkOn Cfg.default 399 = false ∧ blinkOn Cfg.default 400 = true ∧
  blinkOn Cfg.default 4294967295 = true

/-- Purity (44_output_mapper.md section 6): the tuple depends on the mode, on the values of that mode's path and on the
blink phase, and on nothing else of the state; in Autonomous not on the filtered values, in Manual not on the intent. -/
def Obligations.OutputMapIsPure : Prop :=
  ∀ (s s' : State) (f f' g g' p p' : Nat), s.cfg = s'.cfg → s.mode = s'.mode →
    p % s.cfg.blinkPeriodMs = p' % s.cfg.blinkPeriodMs →
    (s.mode = .manual → f = f' ∧ g = g') →
    (s.mode = .autonomous → s.steerSym = s'.steerSym ∧ s.driveSym = s'.driveSym) →
    s.outMap f g p = s'.outMap f' g' p'

/-- Range (44_output_mapper.md section 6): for every input the angle lies in the servo range and the pulse is one of the
three constants. Both lamps are on only when the drive state is reverse: in Manual a drive value below the lower
threshold, in Autonomous the backward symbol (sections 3 and 5; the threshold and its strictness are decision D18, the
turn condition D21, the brake condition D22, log 17). -/
def Obligations.OutputsAreAlwaysInRange : Prop :=
  ∀ (s : State) (f g p : Nat), s.cfg.wf = true →
    (s.outMap f g p).InRange s.cfg ∧
    ((s.outMap f g p).ledL = true → (s.outMap f g p).ledR = true →
      (s.mode = .manual ∧ g < s.cfg.driveRevThreshUs) ∨
      (s.mode = .autonomous ∧ s.driveSym = .backward))

/-- OUT.EMIT writes all four ports, in their formats, and appends one record (44_output_mapper.md section 7, decision D24;
the port widths are decision D27, log 9). -/
def Obligations.OutEmitWritesAllPorts : Prop :=
  ∀ (angle pulse : Nat) (l r : Bool) (s : State), s.cfg.wf = true → angle < 2 ^ 8 → pulse < 2 ^ 16 →
    exec (.outEmit angle pulse l r) s = .next { s with
      outAngle := some (BitVec.ofNat 8 angle), outDriveUs := some (BitVec.ofNat 16 pulse)
      outLedL := some l, outLedR := some r
      records := s.records ++ [⟨BitVec.ofNat 8 angle, BitVec.ofNat 16 pulse, l, r⟩] }

/-- Rule R131: every executed tick appends exactly one output record and leaves the four ports showing it, whether or not
a value changed. -/
def Obligations.EveryExecutedTickWritesOnce : Prop :=
  ∀ (now phase : Nat) (s t : State), gateOpen s.cfg s.lastTickMs now = true →
    exec (.tick now phase) s = .next t →
    ∃ r, t.records = s.records ++ [r] ∧ t.PortsShow (some r)

/-- In Autonomous the analog channels reach no output: two states that differ only in the steering and drive captures and
in the rings show the same after an executed tick that ends in Autonomous (44_output_mapper.md section 4). -/
def Obligations.AutonomousIgnoresTheAnalogChannels : Prop :=
  ∀ (s t t' : State) (e0 e1 : Channel) (r0 r1 : Vector Nat 5) (k : Fin 5) (now phase : Nat),
    exec (.tick now phase) s = .next t →
    exec (.tick now phase) { s with
      chans := { s.chans with steering := e0, drive := e1 }
      ringSteer := r0, ringDrive := r1, idx := k } = .next t' →
    t.mode = .autonomous → t'.observe = t.observe ∧ t'.mode = .autonomous

/-! ## Tick sequencer (45_scheduler_tick.md) -/

/-- TICK (45_scheduler_tick.md section 2): with the gate closed a tick changes nothing; with the gate open it is the
phases run in their fixed order on the state with the new `last_tick_ms`, each on the tick-local values of the ones before
it, which do not survive it. The gate's form is decision D12 (log 16); the order of the phases, MODE.XING before
CMD.DRAIN, is decision D11 (log 14). Where a phase run alone leaves its values is the model's choice (log 6), and what a
port holds after a value that does not fit it is free (log 9). -/
def Obligations.TickRunsThePhasesInOrder : Prop :=
  ∀ (now phase : Nat) (s : State), s.Inv → now < 2 ^ s.cfg.wMs → phase < 2 ^ s.cfg.wMs →
    ((now + 2 ^ s.cfg.wMs - s.lastTickMs) % 2 ^ s.cfg.wMs < s.cfg.tickMs →
      exec (.tick now phase) s = .next s) ∧
    (s.cfg.tickMs ≤ (now + 2 ^ s.cfg.wMs - s.lastTickMs) % 2 ^ s.cfg.wMs →
      ∃ (a b c d e : State) (n : Snapshot) (f : Filtered) (r : OutTuple),
        exec .snap { s with lastTickMs := now } = .next a ∧ a.scratch.snap = some n ∧
        exec (.filtUpdate n.s0 n.s1) a = .next b ∧ b.scratch.filt = some f ∧
        exec (.modeXing n.s2) b = .next c ∧
        exec .cmdDrain c = .next d ∧
        exec (.outMap f.fSteer f.fDrive phase) d = .next e ∧ e.scratch.out = some r ∧
        exec (.tick now phase) s = .next { e with
          outAngle := some (anglePort r.angle), outDriveUs := some (pulsePort r.pulse)
          outLedL := some r.ledL, outLedR := some r.ledR
          records := e.records ++ [r.toPorts], scratch := {} } ∧
        (r.angle < 2 ^ 8 → r.pulse < 2 ^ 16 →
          ∃ g, exec (.outEmit r.angle r.pulse r.ledL r.ledR) e = .next g ∧
            exec (.tick now phase) s = .next { g with scratch := {} }))

/-- Dropped ticks and the wrap (45_scheduler_tick.md section 2; the gate's form is decision D12, log 16): after a tick
sampled at true time `M`, a poll at a later true time does nothing before `TICK_MS` has passed, and runs one tick, dated
by its own sample, once it has. -/
def Obligations.GateCountsFromTheLastTick : Prop :=
  ∀ (M M' phase : Nat) (s : State), s.cfg.wf = true → s.lastTickMs = M % 2 ^ s.cfg.wMs → M ≤ M' →
    M' - M < 2 ^ s.cfg.wMs → phase < 2 ^ s.cfg.wMs →
    (M' - M < s.cfg.tickMs → exec (.tick (M' % 2 ^ s.cfg.wMs) phase) s = .next s) ∧
    (s.cfg.tickMs ≤ M' - M → ∃ t, exec (.tick (M' % 2 ^ s.cfg.wMs) phase) s = .next t ∧
      t.lastTickMs = M' % 2 ^ s.cfg.wMs ∧ t.records.length = s.records.length + 1)

/-- The first tick (45_scheduler_tick.md section 2, decisions D12 and D28): in every run from reset whose polls all sample
less than `TICK_MS`, no output port is ever written. -/
def Obligations.NoOutputBeforeTheFirstTick : Prop :=
  ∀ (cfg : Cfg) (es : List Event) (t : State), cfg.wf = true →
    (∀ m p, Event.tick m p ∈ es → m < cfg.tickMs) →
    runEvents es (State.resetWith cfg) = .next t → t.records = [] ∧ t.PortsShow none ∧ t.lastTickMs = 0

/-- What the outside sees at rest (70_reset_and_hazards.md section 1, default configuration): if only ticks happen after
reset, every record is 105 degrees, neutral pulse, lamps off, nothing is sent, and the mode stays Manual. -/
def Obligations.AtRestTheBlockIsQuiet : Prop :=
  ∀ (es : List Event) (t : State), (∀ e ∈ es, e.isTick = true) →
    runEvents es State.reset = .next t →
    (∀ r ∈ t.records, r = ⟨105, 1500, false, false⟩) ∧ t.tx = [] ∧ t.mode = .manual ∧ t.rxq = []

/-- The crossing is tested before the drain (45_scheduler_tick.md section 2, decision D11, log 14): in a tick that finds
Manual, a crossing and one force-Manual byte, the command has the last word, and both changes are notified. -/
def Obligations.CommandHasTheLastWord : Prop :=
  ∀ (now phase : Nat) (s : State), s.cfg.wf = true → now < 2 ^ s.cfg.wMs → phase < 2 ^ s.cfg.wMs →
    gateOpen s.cfg s.lastTickMs now = true → s.mode = .manual →
    crossing s.cfg s.prevSel (s.ch .modeSelect).raw = true → s.rxq = [s.cfg.cmdForceManual] →
    ∃ t, exec (.tick now phase) s = .next t ∧ t.mode = .manual ∧
      t.tx = s.tx ++ [s.cfg.notifyAuto, s.cfg.notifyManual]

/-- Stale intent (70_reset_and_hazards.md section 3, decision D23, log 23): the tick that enters Autonomous, by a force
byte without other bytes or by a crossing, outputs the intent the last stay left, in the port formats (decision D27, log
9). -/
def Obligations.ReentryResumesTheLastIntent : Prop :=
  ∀ (now phase : Nat) (s : State), s.cfg.wf = true → now < 2 ^ s.cfg.wMs → phase < 2 ^ s.cfg.wMs →
    gateOpen s.cfg s.lastTickMs now = true → s.mode = .manual →
    ((crossing s.cfg s.prevSel (s.ch .modeSelect).raw = false ∧ s.rxq = [s.cfg.cmdForceAuto]) ∨
     (crossing s.cfg s.prevSel (s.ch .modeSelect).raw = true ∧ s.rxq = [])) →
    ∃ t, exec (.tick now phase) s = .next t ∧ t.mode = .autonomous ∧
      t.steerSym = s.steerSym ∧ t.driveSym = s.driveSym ∧
      t.outAngle = some (anglePort (steerAuto s.cfg s.steerSym)) ∧
      t.outDriveUs = some (pulsePort (drivePulse s.cfg (driveAuto s.driveSym)))

/-! ## The conditions of the indicator logic (44_output_mapper.md section 5) -/

/-- The brake and turn conditions that the indicator decision reads. Brake is reverse drive and nothing else (decision D22,
log 17). The turns are strict inequalities on the angle, the side of a low angle chosen by the configuration, and never both;
with the default configuration below 70 is a left turn and above 110 a right one (decision D21, log 17). -/
def Obligations.BrakeIsReverseAndTurnIsBeyondTheDeadband : Prop :=
  (∀ ds : DriveState, brake ds = true ↔ ds = .dReverse) ∧
  (∀ (cfg : Cfg) (angle : Nat), cfg.leftIsLowAngle = true →
    (turnLeft cfg angle = true ↔ angle < cfg.steerCenterDeg - cfg.turnDeadbandDeg) ∧
    (turnRight cfg angle = true ↔ cfg.steerCenterDeg + cfg.turnDeadbandDeg < angle)) ∧
  (∀ (cfg : Cfg) (angle : Nat), cfg.leftIsLowAngle = false →
    (turnLeft cfg angle = true ↔ cfg.steerCenterDeg + cfg.turnDeadbandDeg < angle) ∧
    (turnRight cfg angle = true ↔ angle < cfg.steerCenterDeg - cfg.turnDeadbandDeg)) ∧
  (∀ (cfg : Cfg) (angle : Nat), cfg.wf = true → turnLeft cfg angle = true → turnRight cfg angle = false) ∧
  (∀ angle : Nat, (turnLeft Cfg.default angle = true ↔ angle < 70) ∧
    (turnRight Cfg.default angle = true ↔ 110 < angle))

/-! ## The output ports (30_encoding.md section 5) -/

/-- A port holds what was written to it whenever the value fits its width, 8 bits for the angle and 16 for the pulse
(decision D27; what it holds otherwise is free, log 9). So under a configuration whose angles and pulses fit the ports, every
record and both servo ports of a good state hold an angle in the servo range and one of the three pulses. -/
def Obligations.PortsHoldWhatFitsThem : Prop :=
  (∀ v : Nat, v < 2 ^ 8 → (anglePort v).toNat = v) ∧
  (∀ v : Nat, v < 2 ^ 16 → (pulsePort v).toNat = v) ∧
  (∀ s : State, s.Inv → FitsPorts s.cfg →
    (∀ r ∈ s.records,
      (s.cfg.steerOutMinDeg ≤ r.angle.toNat ∧ r.angle.toNat ≤ s.cfg.steerOutMaxDeg) ∧
      (r.pulse.toNat = s.cfg.driveFwdUs ∨ r.pulse.toNat = s.cfg.driveRevUs ∨
        r.pulse.toNat = s.cfg.driveNeutralUs)) ∧
    (∀ a, s.outAngle = some a → s.cfg.steerOutMinDeg ≤ a.toNat ∧ a.toNat ≤ s.cfg.steerOutMaxDeg) ∧
    (∀ p, s.outDriveUs = some p → p.toNat = s.cfg.driveFwdUs ∨ p.toNat = s.cfg.driveRevUs ∨
      p.toNat = s.cfg.driveNeutralUs))
end

