-- ==== Sys2Proof/Laws/Config.lean ====
section
/-! SUPPORT. What a well-formed configuration gives a proof (00_scope.md R5), one lemma per use. -/

namespace Sys2Proof

theorem Cfg.wf_iff (c : Cfg) : c.wf = true ↔ c.WellFormed := by
  simp only [Cfg.wf, decide_eq_true_eq]

theorem Cfg.wf_n {c : Cfg} (h : c.wf = true) : c.n = 5 := ((Cfg.wf_iff c).1 h).1.2

theorem Cfg.wf_ranges {c : Cfg} (h : c.wf = true) : c.WfRanges := ((Cfg.wf_iff c).1 h).2.1

theorem Cfg.wf_deadband {c : Cfg} (h : c.wf = true) : c.WfDeadband := ((Cfg.wf_iff c).1 h).2.2.1

theorem Cfg.wf_times {c : Cfg} (h : c.wf = true) : c.WfTimes := ((Cfg.wf_iff c).1 h).2.2.2.2.1

theorem Cfg.wf_angles {c : Cfg} (h : c.wf = true) : c.WfAngles := ((Cfg.wf_iff c).1 h).2.2.2.2.2.1

theorem Cfg.wf_bytes {c : Cfg} (h : c.wf = true) : c.WfBytes := ((Cfg.wf_iff c).1 h).2.2.2.2.2.2.1

theorem Cfg.wf_sides {c : Cfg} (h : c.wf = true) : c.WfSides :=
  ((Cfg.wf_iff c).1 h).2.2.2.2.2.2.2.1

theorem Cfg.wf_widths {c : Cfg} (h : c.wf = true) : c.WfWidths :=
  ((Cfg.wf_iff c).1 h).2.2.2.2.2.2.2.2.1

theorem Cfg.wf_centre {c : Cfg} (h : c.wf = true) : c.WfCentre :=
  ((Cfg.wf_iff c).1 h).2.2.2.2.2.2.2.2.2

/-- The reset widths and the neutral value fit `W_US` bits (R5 (i)). -/
theorem Cfg.wf_resets_fit {c : Cfg} (h : c.wf = true) :
    c.neutralUs < 2 ^ c.wUs ∧ c.rawResetUs < 2 ^ c.wUs ∧ c.prevResetUs < 2 ^ c.wUs := by
  have hw := (Cfg.wf_widths h).1
  exact ⟨hw _ (by simp [Cfg.microFields]), hw _ (by simp [Cfg.microFields]),
    hw _ (by simp [Cfg.microFields])⟩

/-- The ten command bytes as pairwise inequalities (R5 (g)). -/
theorem Cfg.wf_bytes_distinct {c : Cfg} (h : c.wf = true) :
    c.cmdBytes.Nodup ∧ c.notifyAuto ≠ c.notifyManual := Cfg.wf_bytes h

end Sys2Proof
end

