-- ==== Sys2Proof/Laws/Operands.lean ====
section
/-! SUPPORT. What the number operators can answer (00_scope.md R6, 41_sample_filter.md R77). -/

namespace Sys2Proof.Machine

theorem wrapSub_lt (w a b : Nat) : wrapSub w a b < 2 ^ w := Nat.mod_lt _ (Nat.two_pow_pos w)

/-- R6: the wrapping difference of two residues is the residue of the difference. -/
theorem wrapSub_mod_mod {w a b : Nat} (h : a ≤ b) :
    wrapSub w (b % 2 ^ w) (a % 2 ^ w) = (b - a) % 2 ^ w := by
  have hp := Nat.two_pow_pos w
  unfold wrapSub
  generalize 2 ^ w = m at hp ⊢
  have key : (b % m + m - a % m) ≡ (b - a) [MOD m] := by
    have h1 : a % m ≤ b % m + m := le_trans (Nat.mod_lt a hp).le (Nat.le_add_left _ _)
    apply Nat.ModEq.add_right_cancel (Nat.mod_modEq a m)
    rw [Nat.sub_add_cancel h1, Nat.sub_add_cancel h]
    exact (Nat.add_mod_right _ _).trans (Nat.mod_mod _ _)
  exact key

theorem le_clamp {v lo hi : Nat} (h : lo ≤ hi) : lo ≤ clamp v lo hi := by
  unfold clamp; split_ifs <;> omega

theorem clamp_le {v lo hi : Nat} (h : lo ≤ hi) : clamp v lo hi ≤ hi := by
  unfold clamp; split_ifs <;> omega

/-- A value within the bounds is left alone. -/
theorem clamp_of_mem {v lo hi : Nat} (h1 : lo ≤ v) (h2 : v ≤ hi) : clamp v lo hi = v := by
  unfold clamp; split_ifs <;> omega

theorem clamp_eq_min_max {v lo hi : Nat} (h : lo ≤ hi) : clamp v lo hi = min (max v lo) hi := by
  unfold clamp; split_ifs <;> omega

/-- A common bound of the slots bounds the sum. -/
theorem ringSum_bounds {r : Vector Nat 5} {lo hi : Nat} (h : ∀ i : Fin 5, lo ≤ r[i] ∧ r[i] ≤ hi) :
    5 * lo ≤ ringSum r ∧ ringSum r ≤ 5 * hi := by
  have h0 := h 0; have h1 := h 1; have h2 := h 2; have h3 := h 3; have h4 := h 4
  simp only [Fin.getElem_fin, Fin.val_zero, Fin.val_one, Fin.val_two] at h0 h1 h2
  change lo ≤ r[3] ∧ r[3] ≤ hi at h3
  change lo ≤ r[4] ∧ r[4] ≤ hi at h4
  unfold ringSum
  omega

/-- R77: the mean of slots of width `W` has width `W`. -/
theorem ringMean_lt {cfg : Cfg} {r : Vector Nat 5} {m : Nat} (hn : cfg.n = 5)
    (h : ∀ i : Fin 5, r[i] < m) : ringMean cfg r < m := by
  have h0 : 0 < m := lt_of_le_of_lt (Nat.zero_le _) (h 0)
  have hb := (ringSum_bounds (r := r) (lo := 0) (hi := m - 1) fun i =>
    ⟨Nat.zero_le _, Nat.le_sub_one_of_lt (h i)⟩).2
  unfold ringMean
  rw [hn]
  omega

/-- R82: one write changes the sum by the difference of the new and the old slot. -/
theorem ringSum_set (r : Vector Nat 5) (i : Fin 5) (v : Nat) :
    ringSum (r.set i v) + r[i] = ringSum r + v := by
  unfold ringSum
  fin_cases i <;> simp <;> omega

/-! ## The port formats (30_encoding.md R54) -/

theorem anglePort_of_lt {v : Nat} (h : v < 2 ^ 8) : anglePort v = BitVec.ofNat 8 v :=
  if_pos (decide_eq_true h)

theorem pulsePort_of_lt {v : Nat} (h : v < 2 ^ 16) : pulsePort v = BitVec.ofNat 16 v :=
  if_pos (decide_eq_true h)

end Sys2Proof.Machine
end

