-- ==== Sys2Proof/Laws/State.lean ====
section
/-! SUPPORT. The state's small lemmas: what each named update of Machine/Ops.lean does to each field, and the laws of the
channel register file (20_memory.md R31). Every later proof cites these instead of unfolding a record update. -/

namespace Sys2Proof.Machine

/-! ## The channel register file -/

@[simp] theorem Channels.get_set_self (f : Channels) (c : Chan) (e : Channel) : (f.set c e).get c = e := by
  cases c <;> rfl

theorem Channels.get_set_ne (f : Channels) {c d : Chan} (e : Channel) (h : d ≠ c) :
    (f.set c e).get d = f.get d := by
  cases c <;> cases d <;> first | rfl | exact absurd rfl h

@[simp] theorem State.ch_setCh_self (s : State) (c : Chan) (e : Channel) : (s.setCh c e).ch c = e :=
  Channels.get_set_self _ _ _

theorem State.ch_setCh_ne (s : State) {c d : Chan} (e : Channel) (h : d ≠ c) :
    (s.setCh c e).ch d = s.ch d :=
  Channels.get_set_ne _ _ h

theorem Channels.set_comm (f : Channels) {c d : Chan} (a b : Channel) (h : c ≠ d) :
    (f.set c a).set d b = (f.set d b).set c a := by
  cases c <;> cases d <;> first | rfl | exact absurd rfl h

theorem Channels.ext_get {f g : Channels} (h : ∀ c, f.get c = g.get c) : f = g := by
  cases f; cases g
  simp only [Channels.mk.injEq]
  exact ⟨h .steering, h .drive, h .modeSelect⟩

theorem State.ch_of_chans {s t : State} (h : t.chans = s.chans) (c : Chan) : t.ch c = s.ch c := by
  rw [State.ch, State.ch, h]

/-! ## One lemma per field per update -/

@[simp] theorem State.setCh_chans (s : State) (c : Chan) (e : Channel) : (s.setCh c e).chans = s.chans.set c e := rfl
@[simp] theorem State.setCh_ringSteer (s : State) (c : Chan) (e : Channel) : (s.setCh c e).ringSteer = s.ringSteer := rfl
@[simp] theorem State.setCh_ringDrive (s : State) (c : Chan) (e : Channel) : (s.setCh c e).ringDrive = s.ringDrive := rfl
@[simp] theorem State.setCh_idx (s : State) (c : Chan) (e : Channel) : (s.setCh c e).idx = s.idx := rfl
@[simp] theorem State.setCh_mode (s : State) (c : Chan) (e : Channel) : (s.setCh c e).mode = s.mode := rfl
@[simp] theorem State.setCh_prevSel (s : State) (c : Chan) (e : Channel) : (s.setCh c e).prevSel = s.prevSel := rfl
@[simp] theorem State.setCh_steerSym (s : State) (c : Chan) (e : Channel) : (s.setCh c e).steerSym = s.steerSym := rfl
@[simp] theorem State.setCh_driveSym (s : State) (c : Chan) (e : Channel) : (s.setCh c e).driveSym = s.driveSym := rfl
@[simp] theorem State.setCh_lastTickMs (s : State) (c : Chan) (e : Channel) : (s.setCh c e).lastTickMs = s.lastTickMs := rfl
@[simp] theorem State.setCh_outAngle (s : State) (c : Chan) (e : Channel) : (s.setCh c e).outAngle = s.outAngle := rfl
@[simp] theorem State.setCh_outDriveUs (s : State) (c : Chan) (e : Channel) : (s.setCh c e).outDriveUs = s.outDriveUs := rfl
@[simp] theorem State.setCh_outLedL (s : State) (c : Chan) (e : Channel) : (s.setCh c e).outLedL = s.outLedL := rfl
@[simp] theorem State.setCh_outLedR (s : State) (c : Chan) (e : Channel) : (s.setCh c e).outLedR = s.outLedR := rfl
@[simp] theorem State.setCh_records (s : State) (c : Chan) (e : Channel) : (s.setCh c e).records = s.records := rfl
@[simp] theorem State.setCh_rxq (s : State) (c : Chan) (e : Channel) : (s.setCh c e).rxq = s.rxq := rfl
@[simp] theorem State.setCh_tx (s : State) (c : Chan) (e : Channel) : (s.setCh c e).tx = s.tx := rfl
@[simp] theorem State.setCh_scratch (s : State) (c : Chan) (e : Channel) : (s.setCh c e).scratch = s.scratch := rfl
@[simp] theorem State.setCh_cfg (s : State) (c : Chan) (e : Channel) : (s.setCh c e).cfg = s.cfg := rfl
@[simp] theorem State.setCh_pending (s : State) (c : Chan) (e : Channel) : (s.setCh c e).pending = s.pending := rfl

@[simp] theorem State.writeRings_chans (s : State) (a b : Nat) : (s.writeRings a b).chans = s.chans := rfl
@[simp] theorem State.writeRings_ringSteer (s : State) (a b : Nat) : (s.writeRings a b).ringSteer = s.ringSteer.set s.idx a := rfl
@[simp] theorem State.writeRings_ringDrive (s : State) (a b : Nat) : (s.writeRings a b).ringDrive = s.ringDrive.set s.idx b := rfl
@[simp] theorem State.writeRings_idx (s : State) (a b : Nat) : (s.writeRings a b).idx = s.idx := rfl
@[simp] theorem State.writeRings_mode (s : State) (a b : Nat) : (s.writeRings a b).mode = s.mode := rfl
@[simp] theorem State.writeRings_prevSel (s : State) (a b : Nat) : (s.writeRings a b).prevSel = s.prevSel := rfl
@[simp] theorem State.writeRings_steerSym (s : State) (a b : Nat) : (s.writeRings a b).steerSym = s.steerSym := rfl
@[simp] theorem State.writeRings_driveSym (s : State) (a b : Nat) : (s.writeRings a b).driveSym = s.driveSym := rfl
@[simp] theorem State.writeRings_lastTickMs (s : State) (a b : Nat) : (s.writeRings a b).lastTickMs = s.lastTickMs := rfl
@[simp] theorem State.writeRings_outAngle (s : State) (a b : Nat) : (s.writeRings a b).outAngle = s.outAngle := rfl
@[simp] theorem State.writeRings_outDriveUs (s : State) (a b : Nat) : (s.writeRings a b).outDriveUs = s.outDriveUs := rfl
@[simp] theorem State.writeRings_outLedL (s : State) (a b : Nat) : (s.writeRings a b).outLedL = s.outLedL := rfl
@[simp] theorem State.writeRings_outLedR (s : State) (a b : Nat) : (s.writeRings a b).outLedR = s.outLedR := rfl
@[simp] theorem State.writeRings_records (s : State) (a b : Nat) : (s.writeRings a b).records = s.records := rfl
@[simp] theorem State.writeRings_rxq (s : State) (a b : Nat) : (s.writeRings a b).rxq = s.rxq := rfl
@[simp] theorem State.writeRings_tx (s : State) (a b : Nat) : (s.writeRings a b).tx = s.tx := rfl
@[simp] theorem State.writeRings_scratch (s : State) (a b : Nat) : (s.writeRings a b).scratch = s.scratch := rfl
@[simp] theorem State.writeRings_cfg (s : State) (a b : Nat) : (s.writeRings a b).cfg = s.cfg := rfl
@[simp] theorem State.writeRings_pending (s : State) (a b : Nat) : (s.writeRings a b).pending = s.pending := rfl
@[simp] theorem State.writeRings_ch (s : State) (a b : Nat) (k : Chan) : (s.writeRings a b).ch k = s.ch k := rfl

@[simp] theorem State.advanceIdx_chans (s : State) : (s.advanceIdx).chans = s.chans := rfl
@[simp] theorem State.advanceIdx_ringSteer (s : State) : (s.advanceIdx).ringSteer = s.ringSteer := rfl
@[simp] theorem State.advanceIdx_ringDrive (s : State) : (s.advanceIdx).ringDrive = s.ringDrive := rfl
@[simp] theorem State.advanceIdx_idx (s : State) : (s.advanceIdx).idx = ⟨(s.idx.val + 1) % 5, Nat.mod_lt _ (by decide)⟩ := rfl
@[simp] theorem State.advanceIdx_mode (s : State) : (s.advanceIdx).mode = s.mode := rfl
@[simp] theorem State.advanceIdx_prevSel (s : State) : (s.advanceIdx).prevSel = s.prevSel := rfl
@[simp] theorem State.advanceIdx_steerSym (s : State) : (s.advanceIdx).steerSym = s.steerSym := rfl
@[simp] theorem State.advanceIdx_driveSym (s : State) : (s.advanceIdx).driveSym = s.driveSym := rfl
@[simp] theorem State.advanceIdx_lastTickMs (s : State) : (s.advanceIdx).lastTickMs = s.lastTickMs := rfl
@[simp] theorem State.advanceIdx_outAngle (s : State) : (s.advanceIdx).outAngle = s.outAngle := rfl
@[simp] theorem State.advanceIdx_outDriveUs (s : State) : (s.advanceIdx).outDriveUs = s.outDriveUs := rfl
@[simp] theorem State.advanceIdx_outLedL (s : State) : (s.advanceIdx).outLedL = s.outLedL := rfl
@[simp] theorem State.advanceIdx_outLedR (s : State) : (s.advanceIdx).outLedR = s.outLedR := rfl
@[simp] theorem State.advanceIdx_records (s : State) : (s.advanceIdx).records = s.records := rfl
@[simp] theorem State.advanceIdx_rxq (s : State) : (s.advanceIdx).rxq = s.rxq := rfl
@[simp] theorem State.advanceIdx_tx (s : State) : (s.advanceIdx).tx = s.tx := rfl
@[simp] theorem State.advanceIdx_scratch (s : State) : (s.advanceIdx).scratch = s.scratch := rfl
@[simp] theorem State.advanceIdx_cfg (s : State) : (s.advanceIdx).cfg = s.cfg := rfl
@[simp] theorem State.advanceIdx_pending (s : State) : (s.advanceIdx).pending = s.pending := rfl
@[simp] theorem State.advanceIdx_ch (s : State) (k : Chan) : (s.advanceIdx).ch k = s.ch k := rfl

@[simp] theorem State.setMode_chans (s : State) (m : Mode) : (s.setMode m).chans = s.chans := rfl
@[simp] theorem State.setMode_ringSteer (s : State) (m : Mode) : (s.setMode m).ringSteer = s.ringSteer := rfl
@[simp] theorem State.setMode_ringDrive (s : State) (m : Mode) : (s.setMode m).ringDrive = s.ringDrive := rfl
@[simp] theorem State.setMode_idx (s : State) (m : Mode) : (s.setMode m).idx = s.idx := rfl
@[simp] theorem State.setMode_mode (s : State) (m : Mode) : (s.setMode m).mode = m := rfl
@[simp] theorem State.setMode_prevSel (s : State) (m : Mode) : (s.setMode m).prevSel = s.prevSel := rfl
@[simp] theorem State.setMode_steerSym (s : State) (m : Mode) : (s.setMode m).steerSym = s.steerSym := rfl
@[simp] theorem State.setMode_driveSym (s : State) (m : Mode) : (s.setMode m).driveSym = s.driveSym := rfl
@[simp] theorem State.setMode_lastTickMs (s : State) (m : Mode) : (s.setMode m).lastTickMs = s.lastTickMs := rfl
@[simp] theorem State.setMode_outAngle (s : State) (m : Mode) : (s.setMode m).outAngle = s.outAngle := rfl
@[simp] theorem State.setMode_outDriveUs (s : State) (m : Mode) : (s.setMode m).outDriveUs = s.outDriveUs := rfl
@[simp] theorem State.setMode_outLedL (s : State) (m : Mode) : (s.setMode m).outLedL = s.outLedL := rfl
@[simp] theorem State.setMode_outLedR (s : State) (m : Mode) : (s.setMode m).outLedR = s.outLedR := rfl
@[simp] theorem State.setMode_records (s : State) (m : Mode) : (s.setMode m).records = s.records := rfl
@[simp] theorem State.setMode_rxq (s : State) (m : Mode) : (s.setMode m).rxq = s.rxq := rfl
@[simp] theorem State.setMode_tx (s : State) (m : Mode) : (s.setMode m).tx = s.tx := rfl
@[simp] theorem State.setMode_scratch (s : State) (m : Mode) : (s.setMode m).scratch = s.scratch := rfl
@[simp] theorem State.setMode_cfg (s : State) (m : Mode) : (s.setMode m).cfg = s.cfg := rfl
@[simp] theorem State.setMode_pending (s : State) (m : Mode) : (s.setMode m).pending = s.pending := rfl
@[simp] theorem State.setMode_ch (s : State) (m : Mode) (k : Chan) : (s.setMode m).ch k = s.ch k := rfl

@[simp] theorem State.setPrevSel_chans (s : State) (v : Nat) : (s.setPrevSel v).chans = s.chans := rfl
@[simp] theorem State.setPrevSel_ringSteer (s : State) (v : Nat) : (s.setPrevSel v).ringSteer = s.ringSteer := rfl
@[simp] theorem State.setPrevSel_ringDrive (s : State) (v : Nat) : (s.setPrevSel v).ringDrive = s.ringDrive := rfl
@[simp] theorem State.setPrevSel_idx (s : State) (v : Nat) : (s.setPrevSel v).idx = s.idx := rfl
@[simp] theorem State.setPrevSel_mode (s : State) (v : Nat) : (s.setPrevSel v).mode = s.mode := rfl
@[simp] theorem State.setPrevSel_prevSel (s : State) (v : Nat) : (s.setPrevSel v).prevSel = v := rfl
@[simp] theorem State.setPrevSel_steerSym (s : State) (v : Nat) : (s.setPrevSel v).steerSym = s.steerSym := rfl
@[simp] theorem State.setPrevSel_driveSym (s : State) (v : Nat) : (s.setPrevSel v).driveSym = s.driveSym := rfl
@[simp] theorem State.setPrevSel_lastTickMs (s : State) (v : Nat) : (s.setPrevSel v).lastTickMs = s.lastTickMs := rfl
@[simp] theorem State.setPrevSel_outAngle (s : State) (v : Nat) : (s.setPrevSel v).outAngle = s.outAngle := rfl
@[simp] theorem State.setPrevSel_outDriveUs (s : State) (v : Nat) : (s.setPrevSel v).outDriveUs = s.outDriveUs := rfl
@[simp] theorem State.setPrevSel_outLedL (s : State) (v : Nat) : (s.setPrevSel v).outLedL = s.outLedL := rfl
@[simp] theorem State.setPrevSel_outLedR (s : State) (v : Nat) : (s.setPrevSel v).outLedR = s.outLedR := rfl
@[simp] theorem State.setPrevSel_records (s : State) (v : Nat) : (s.setPrevSel v).records = s.records := rfl
@[simp] theorem State.setPrevSel_rxq (s : State) (v : Nat) : (s.setPrevSel v).rxq = s.rxq := rfl
@[simp] theorem State.setPrevSel_tx (s : State) (v : Nat) : (s.setPrevSel v).tx = s.tx := rfl
@[simp] theorem State.setPrevSel_scratch (s : State) (v : Nat) : (s.setPrevSel v).scratch = s.scratch := rfl
@[simp] theorem State.setPrevSel_cfg (s : State) (v : Nat) : (s.setPrevSel v).cfg = s.cfg := rfl
@[simp] theorem State.setPrevSel_pending (s : State) (v : Nat) : (s.setPrevSel v).pending = s.pending := rfl
@[simp] theorem State.setPrevSel_ch (s : State) (v : Nat) (k : Chan) : (s.setPrevSel v).ch k = s.ch k := rfl

@[simp] theorem State.setSteerSym_chans (s : State) (y : SteerSym) : (s.setSteerSym y).chans = s.chans := rfl
@[simp] theorem State.setSteerSym_ringSteer (s : State) (y : SteerSym) : (s.setSteerSym y).ringSteer = s.ringSteer := rfl
@[simp] theorem State.setSteerSym_ringDrive (s : State) (y : SteerSym) : (s.setSteerSym y).ringDrive = s.ringDrive := rfl
@[simp] theorem State.setSteerSym_idx (s : State) (y : SteerSym) : (s.setSteerSym y).idx = s.idx := rfl
@[simp] theorem State.setSteerSym_mode (s : State) (y : SteerSym) : (s.setSteerSym y).mode = s.mode := rfl
@[simp] theorem State.setSteerSym_prevSel (s : State) (y : SteerSym) : (s.setSteerSym y).prevSel = s.prevSel := rfl
@[simp] theorem State.setSteerSym_steerSym (s : State) (y : SteerSym) : (s.setSteerSym y).steerSym = y := rfl
@[simp] theorem State.setSteerSym_driveSym (s : State) (y : SteerSym) : (s.setSteerSym y).driveSym = s.driveSym := rfl
@[simp] theorem State.setSteerSym_lastTickMs (s : State) (y : SteerSym) : (s.setSteerSym y).lastTickMs = s.lastTickMs := rfl
@[simp] theorem State.setSteerSym_outAngle (s : State) (y : SteerSym) : (s.setSteerSym y).outAngle = s.outAngle := rfl
@[simp] theorem State.setSteerSym_outDriveUs (s : State) (y : SteerSym) : (s.setSteerSym y).outDriveUs = s.outDriveUs := rfl
@[simp] theorem State.setSteerSym_outLedL (s : State) (y : SteerSym) : (s.setSteerSym y).outLedL = s.outLedL := rfl
@[simp] theorem State.setSteerSym_outLedR (s : State) (y : SteerSym) : (s.setSteerSym y).outLedR = s.outLedR := rfl
@[simp] theorem State.setSteerSym_records (s : State) (y : SteerSym) : (s.setSteerSym y).records = s.records := rfl
@[simp] theorem State.setSteerSym_rxq (s : State) (y : SteerSym) : (s.setSteerSym y).rxq = s.rxq := rfl
@[simp] theorem State.setSteerSym_tx (s : State) (y : SteerSym) : (s.setSteerSym y).tx = s.tx := rfl
@[simp] theorem State.setSteerSym_scratch (s : State) (y : SteerSym) : (s.setSteerSym y).scratch = s.scratch := rfl
@[simp] theorem State.setSteerSym_cfg (s : State) (y : SteerSym) : (s.setSteerSym y).cfg = s.cfg := rfl
@[simp] theorem State.setSteerSym_pending (s : State) (y : SteerSym) : (s.setSteerSym y).pending = s.pending := rfl
@[simp] theorem State.setSteerSym_ch (s : State) (y : SteerSym) (k : Chan) : (s.setSteerSym y).ch k = s.ch k := rfl

@[simp] theorem State.setDriveSym_chans (s : State) (y : DriveSym) : (s.setDriveSym y).chans = s.chans := rfl
@[simp] theorem State.setDriveSym_ringSteer (s : State) (y : DriveSym) : (s.setDriveSym y).ringSteer = s.ringSteer := rfl
@[simp] theorem State.setDriveSym_ringDrive (s : State) (y : DriveSym) : (s.setDriveSym y).ringDrive = s.ringDrive := rfl
@[simp] theorem State.setDriveSym_idx (s : State) (y : DriveSym) : (s.setDriveSym y).idx = s.idx := rfl
@[simp] theorem State.setDriveSym_mode (s : State) (y : DriveSym) : (s.setDriveSym y).mode = s.mode := rfl
@[simp] theorem State.setDriveSym_prevSel (s : State) (y : DriveSym) : (s.setDriveSym y).prevSel = s.prevSel := rfl
@[simp] theorem State.setDriveSym_steerSym (s : State) (y : DriveSym) : (s.setDriveSym y).steerSym = s.steerSym := rfl
@[simp] theorem State.setDriveSym_driveSym (s : State) (y : DriveSym) : (s.setDriveSym y).driveSym = y := rfl
@[simp] theorem State.setDriveSym_lastTickMs (s : State) (y : DriveSym) : (s.setDriveSym y).lastTickMs = s.lastTickMs := rfl
@[simp] theorem State.setDriveSym_outAngle (s : State) (y : DriveSym) : (s.setDriveSym y).outAngle = s.outAngle := rfl
@[simp] theorem State.setDriveSym_outDriveUs (s : State) (y : DriveSym) : (s.setDriveSym y).outDriveUs = s.outDriveUs := rfl
@[simp] theorem State.setDriveSym_outLedL (s : State) (y : DriveSym) : (s.setDriveSym y).outLedL = s.outLedL := rfl
@[simp] theorem State.setDriveSym_outLedR (s : State) (y : DriveSym) : (s.setDriveSym y).outLedR = s.outLedR := rfl
@[simp] theorem State.setDriveSym_records (s : State) (y : DriveSym) : (s.setDriveSym y).records = s.records := rfl
@[simp] theorem State.setDriveSym_rxq (s : State) (y : DriveSym) : (s.setDriveSym y).rxq = s.rxq := rfl
@[simp] theorem State.setDriveSym_tx (s : State) (y : DriveSym) : (s.setDriveSym y).tx = s.tx := rfl
@[simp] theorem State.setDriveSym_scratch (s : State) (y : DriveSym) : (s.setDriveSym y).scratch = s.scratch := rfl
@[simp] theorem State.setDriveSym_cfg (s : State) (y : DriveSym) : (s.setDriveSym y).cfg = s.cfg := rfl
@[simp] theorem State.setDriveSym_pending (s : State) (y : DriveSym) : (s.setDriveSym y).pending = s.pending := rfl
@[simp] theorem State.setDriveSym_ch (s : State) (y : DriveSym) (k : Chan) : (s.setDriveSym y).ch k = s.ch k := rfl

@[simp] theorem State.setLastTick_chans (s : State) (v : Nat) : (s.setLastTick v).chans = s.chans := rfl
@[simp] theorem State.setLastTick_ringSteer (s : State) (v : Nat) : (s.setLastTick v).ringSteer = s.ringSteer := rfl
@[simp] theorem State.setLastTick_ringDrive (s : State) (v : Nat) : (s.setLastTick v).ringDrive = s.ringDrive := rfl
@[simp] theorem State.setLastTick_idx (s : State) (v : Nat) : (s.setLastTick v).idx = s.idx := rfl
@[simp] theorem State.setLastTick_mode (s : State) (v : Nat) : (s.setLastTick v).mode = s.mode := rfl
@[simp] theorem State.setLastTick_prevSel (s : State) (v : Nat) : (s.setLastTick v).prevSel = s.prevSel := rfl
@[simp] theorem State.setLastTick_steerSym (s : State) (v : Nat) : (s.setLastTick v).steerSym = s.steerSym := rfl
@[simp] theorem State.setLastTick_driveSym (s : State) (v : Nat) : (s.setLastTick v).driveSym = s.driveSym := rfl
@[simp] theorem State.setLastTick_lastTickMs (s : State) (v : Nat) : (s.setLastTick v).lastTickMs = v := rfl
@[simp] theorem State.setLastTick_outAngle (s : State) (v : Nat) : (s.setLastTick v).outAngle = s.outAngle := rfl
@[simp] theorem State.setLastTick_outDriveUs (s : State) (v : Nat) : (s.setLastTick v).outDriveUs = s.outDriveUs := rfl
@[simp] theorem State.setLastTick_outLedL (s : State) (v : Nat) : (s.setLastTick v).outLedL = s.outLedL := rfl
@[simp] theorem State.setLastTick_outLedR (s : State) (v : Nat) : (s.setLastTick v).outLedR = s.outLedR := rfl
@[simp] theorem State.setLastTick_records (s : State) (v : Nat) : (s.setLastTick v).records = s.records := rfl
@[simp] theorem State.setLastTick_rxq (s : State) (v : Nat) : (s.setLastTick v).rxq = s.rxq := rfl
@[simp] theorem State.setLastTick_tx (s : State) (v : Nat) : (s.setLastTick v).tx = s.tx := rfl
@[simp] theorem State.setLastTick_scratch (s : State) (v : Nat) : (s.setLastTick v).scratch = s.scratch := rfl
@[simp] theorem State.setLastTick_cfg (s : State) (v : Nat) : (s.setLastTick v).cfg = s.cfg := rfl
@[simp] theorem State.setLastTick_pending (s : State) (v : Nat) : (s.setLastTick v).pending = s.pending := rfl
@[simp] theorem State.setLastTick_ch (s : State) (v : Nat) (k : Chan) : (s.setLastTick v).ch k = s.ch k := rfl

@[simp] theorem State.setScratch_chans (s : State) (l : Scratch) : (s.setScratch l).chans = s.chans := rfl
@[simp] theorem State.setScratch_ringSteer (s : State) (l : Scratch) : (s.setScratch l).ringSteer = s.ringSteer := rfl
@[simp] theorem State.setScratch_ringDrive (s : State) (l : Scratch) : (s.setScratch l).ringDrive = s.ringDrive := rfl
@[simp] theorem State.setScratch_idx (s : State) (l : Scratch) : (s.setScratch l).idx = s.idx := rfl
@[simp] theorem State.setScratch_mode (s : State) (l : Scratch) : (s.setScratch l).mode = s.mode := rfl
@[simp] theorem State.setScratch_prevSel (s : State) (l : Scratch) : (s.setScratch l).prevSel = s.prevSel := rfl
@[simp] theorem State.setScratch_steerSym (s : State) (l : Scratch) : (s.setScratch l).steerSym = s.steerSym := rfl
@[simp] theorem State.setScratch_driveSym (s : State) (l : Scratch) : (s.setScratch l).driveSym = s.driveSym := rfl
@[simp] theorem State.setScratch_lastTickMs (s : State) (l : Scratch) : (s.setScratch l).lastTickMs = s.lastTickMs := rfl
@[simp] theorem State.setScratch_outAngle (s : State) (l : Scratch) : (s.setScratch l).outAngle = s.outAngle := rfl
@[simp] theorem State.setScratch_outDriveUs (s : State) (l : Scratch) : (s.setScratch l).outDriveUs = s.outDriveUs := rfl
@[simp] theorem State.setScratch_outLedL (s : State) (l : Scratch) : (s.setScratch l).outLedL = s.outLedL := rfl
@[simp] theorem State.setScratch_outLedR (s : State) (l : Scratch) : (s.setScratch l).outLedR = s.outLedR := rfl
@[simp] theorem State.setScratch_records (s : State) (l : Scratch) : (s.setScratch l).records = s.records := rfl
@[simp] theorem State.setScratch_rxq (s : State) (l : Scratch) : (s.setScratch l).rxq = s.rxq := rfl
@[simp] theorem State.setScratch_tx (s : State) (l : Scratch) : (s.setScratch l).tx = s.tx := rfl
@[simp] theorem State.setScratch_scratch (s : State) (l : Scratch) : (s.setScratch l).scratch = l := rfl
@[simp] theorem State.setScratch_cfg (s : State) (l : Scratch) : (s.setScratch l).cfg = s.cfg := rfl
@[simp] theorem State.setScratch_pending (s : State) (l : Scratch) : (s.setScratch l).pending = s.pending := rfl
@[simp] theorem State.setScratch_ch (s : State) (l : Scratch) (k : Chan) : (s.setScratch l).ch k = s.ch k := rfl

@[simp] theorem State.emitTx_chans (s : State) (b : Byte) : (s.emitTx b).chans = s.chans := rfl
@[simp] theorem State.emitTx_ringSteer (s : State) (b : Byte) : (s.emitTx b).ringSteer = s.ringSteer := rfl
@[simp] theorem State.emitTx_ringDrive (s : State) (b : Byte) : (s.emitTx b).ringDrive = s.ringDrive := rfl
@[simp] theorem State.emitTx_idx (s : State) (b : Byte) : (s.emitTx b).idx = s.idx := rfl
@[simp] theorem State.emitTx_mode (s : State) (b : Byte) : (s.emitTx b).mode = s.mode := rfl
@[simp] theorem State.emitTx_prevSel (s : State) (b : Byte) : (s.emitTx b).prevSel = s.prevSel := rfl
@[simp] theorem State.emitTx_steerSym (s : State) (b : Byte) : (s.emitTx b).steerSym = s.steerSym := rfl
@[simp] theorem State.emitTx_driveSym (s : State) (b : Byte) : (s.emitTx b).driveSym = s.driveSym := rfl
@[simp] theorem State.emitTx_lastTickMs (s : State) (b : Byte) : (s.emitTx b).lastTickMs = s.lastTickMs := rfl
@[simp] theorem State.emitTx_outAngle (s : State) (b : Byte) : (s.emitTx b).outAngle = s.outAngle := rfl
@[simp] theorem State.emitTx_outDriveUs (s : State) (b : Byte) : (s.emitTx b).outDriveUs = s.outDriveUs := rfl
@[simp] theorem State.emitTx_outLedL (s : State) (b : Byte) : (s.emitTx b).outLedL = s.outLedL := rfl
@[simp] theorem State.emitTx_outLedR (s : State) (b : Byte) : (s.emitTx b).outLedR = s.outLedR := rfl
@[simp] theorem State.emitTx_records (s : State) (b : Byte) : (s.emitTx b).records = s.records := rfl
@[simp] theorem State.emitTx_rxq (s : State) (b : Byte) : (s.emitTx b).rxq = s.rxq := rfl
@[simp] theorem State.emitTx_tx (s : State) (b : Byte) : (s.emitTx b).tx = s.tx ++ [b] := rfl
@[simp] theorem State.emitTx_scratch (s : State) (b : Byte) : (s.emitTx b).scratch = s.scratch := rfl
@[simp] theorem State.emitTx_cfg (s : State) (b : Byte) : (s.emitTx b).cfg = s.cfg := rfl
@[simp] theorem State.emitTx_pending (s : State) (b : Byte) : (s.emitTx b).pending = s.pending := rfl
@[simp] theorem State.emitTx_ch (s : State) (b : Byte) (k : Chan) : (s.emitTx b).ch k = s.ch k := rfl

@[simp] theorem State.pushRx_chans (s : State) (b : Byte) : (s.pushRx b).chans = s.chans := rfl
@[simp] theorem State.pushRx_ringSteer (s : State) (b : Byte) : (s.pushRx b).ringSteer = s.ringSteer := rfl
@[simp] theorem State.pushRx_ringDrive (s : State) (b : Byte) : (s.pushRx b).ringDrive = s.ringDrive := rfl
@[simp] theorem State.pushRx_idx (s : State) (b : Byte) : (s.pushRx b).idx = s.idx := rfl
@[simp] theorem State.pushRx_mode (s : State) (b : Byte) : (s.pushRx b).mode = s.mode := rfl
@[simp] theorem State.pushRx_prevSel (s : State) (b : Byte) : (s.pushRx b).prevSel = s.prevSel := rfl
@[simp] theorem State.pushRx_steerSym (s : State) (b : Byte) : (s.pushRx b).steerSym = s.steerSym := rfl
@[simp] theorem State.pushRx_driveSym (s : State) (b : Byte) : (s.pushRx b).driveSym = s.driveSym := rfl
@[simp] theorem State.pushRx_lastTickMs (s : State) (b : Byte) : (s.pushRx b).lastTickMs = s.lastTickMs := rfl
@[simp] theorem State.pushRx_outAngle (s : State) (b : Byte) : (s.pushRx b).outAngle = s.outAngle := rfl
@[simp] theorem State.pushRx_outDriveUs (s : State) (b : Byte) : (s.pushRx b).outDriveUs = s.outDriveUs := rfl
@[simp] theorem State.pushRx_outLedL (s : State) (b : Byte) : (s.pushRx b).outLedL = s.outLedL := rfl
@[simp] theorem State.pushRx_outLedR (s : State) (b : Byte) : (s.pushRx b).outLedR = s.outLedR := rfl
@[simp] theorem State.pushRx_records (s : State) (b : Byte) : (s.pushRx b).records = s.records := rfl
@[simp] theorem State.pushRx_rxq (s : State) (b : Byte) : (s.pushRx b).rxq = s.rxq ++ [b] := rfl
@[simp] theorem State.pushRx_tx (s : State) (b : Byte) : (s.pushRx b).tx = s.tx := rfl
@[simp] theorem State.pushRx_scratch (s : State) (b : Byte) : (s.pushRx b).scratch = s.scratch := rfl
@[simp] theorem State.pushRx_cfg (s : State) (b : Byte) : (s.pushRx b).cfg = s.cfg := rfl
@[simp] theorem State.pushRx_pending (s : State) (b : Byte) : (s.pushRx b).pending = s.pending := rfl
@[simp] theorem State.pushRx_ch (s : State) (b : Byte) (k : Chan) : (s.pushRx b).ch k = s.ch k := rfl

@[simp] theorem State.emitRecord_chans (s : State) (r : OutRecord) : (s.emitRecord r).chans = s.chans := rfl
@[simp] theorem State.emitRecord_ringSteer (s : State) (r : OutRecord) : (s.emitRecord r).ringSteer = s.ringSteer := rfl
@[simp] theorem State.emitRecord_ringDrive (s : State) (r : OutRecord) : (s.emitRecord r).ringDrive = s.ringDrive := rfl
@[simp] theorem State.emitRecord_idx (s : State) (r : OutRecord) : (s.emitRecord r).idx = s.idx := rfl
@[simp] theorem State.emitRecord_mode (s : State) (r : OutRecord) : (s.emitRecord r).mode = s.mode := rfl
@[simp] theorem State.emitRecord_prevSel (s : State) (r : OutRecord) : (s.emitRecord r).prevSel = s.prevSel := rfl
@[simp] theorem State.emitRecord_steerSym (s : State) (r : OutRecord) : (s.emitRecord r).steerSym = s.steerSym := rfl
@[simp] theorem State.emitRecord_driveSym (s : State) (r : OutRecord) : (s.emitRecord r).driveSym = s.driveSym := rfl
@[simp] theorem State.emitRecord_lastTickMs (s : State) (r : OutRecord) : (s.emitRecord r).lastTickMs = s.lastTickMs := rfl
@[simp] theorem State.emitRecord_outAngle (s : State) (r : OutRecord) : (s.emitRecord r).outAngle = some r.angle := rfl
@[simp] theorem State.emitRecord_outDriveUs (s : State) (r : OutRecord) : (s.emitRecord r).outDriveUs = some r.pulse := rfl
@[simp] theorem State.emitRecord_outLedL (s : State) (r : OutRecord) : (s.emitRecord r).outLedL = some r.ledL := rfl
@[simp] theorem State.emitRecord_outLedR (s : State) (r : OutRecord) : (s.emitRecord r).outLedR = some r.ledR := rfl
@[simp] theorem State.emitRecord_records (s : State) (r : OutRecord) : (s.emitRecord r).records = s.records ++ [r] := rfl
@[simp] theorem State.emitRecord_rxq (s : State) (r : OutRecord) : (s.emitRecord r).rxq = s.rxq := rfl
@[simp] theorem State.emitRecord_tx (s : State) (r : OutRecord) : (s.emitRecord r).tx = s.tx := rfl
@[simp] theorem State.emitRecord_scratch (s : State) (r : OutRecord) : (s.emitRecord r).scratch = s.scratch := rfl
@[simp] theorem State.emitRecord_cfg (s : State) (r : OutRecord) : (s.emitRecord r).cfg = s.cfg := rfl
@[simp] theorem State.emitRecord_pending (s : State) (r : OutRecord) : (s.emitRecord r).pending = s.pending := rfl
@[simp] theorem State.emitRecord_ch (s : State) (r : OutRecord) (k : Chan) : (s.emitRecord r).ch k = s.ch k := rfl

end Sys2Proof.Machine
end

