-- ==== Sys2Proof/Laws/Ops.lean ====
section
/-! SUPPORT. What each shared operation can do, said once: the boundary check (R145), the ring update (R76), the mode changes
(R87 to R90), the commands (R98 to R109), the drain (R97) and the tick (R136). -/

namespace Sys2Proof.Machine

/-! ## The boundary -/

/-- R145: an operation answers a next state exactly when the configuration is well formed and its operands fit. -/
theorem atBoundary_eq_next {s t u : State} {fits : Bool} :
    s.atBoundary fits t = .next u ↔ s.cfg.wf = true ∧ fits = true ∧ t = u := by
  cases h1 : s.cfg.wf <;> cases fits <;> simp [State.atBoundary, h1]

theorem atBoundary_of {s t : State} {fits : Bool} (h : s.cfg.wf = true) (hf : fits = true) :
    s.atBoundary fits t = .next t := atBoundary_eq_next.2 ⟨h, hf, rfl⟩

theorem atBoundary_ne_fault {s t : State} {fits : Bool} {r : Fault} : s.atBoundary fits t ≠ .fault r :=
  nomatch r

theorem atBoundary_eq_refused {s t : State} {fits : Bool} {r : Refusal} (h : s.atBoundary fits t = .refused r) :
    (r = .illFormedConfig ∧ s.cfg.wf = false) ∨ (r = .operandOutOfWidth ∧ fits = false) := by
  cases h1 : s.cfg.wf <;> cases h2 : fits <;> simp [State.atBoundary, h1, h2] at h
  · exact .inl ⟨h.symm, rfl⟩
  · exact .inl ⟨h.symm, rfl⟩
  · exact .inr ⟨h.symm, rfl⟩

/-! ## The output ports -/

@[simp] theorem OutTuple.toPorts_angle (x : OutTuple) : x.toPorts.angle = anglePort x.angle := rfl

@[simp] theorem OutTuple.toPorts_pulse (x : OutTuple) : x.toPorts.pulse = pulsePort x.pulse := rfl

@[simp] theorem OutTuple.toPorts_ledL (x : OutTuple) : x.toPorts.ledL = x.ledL := rfl

@[simp] theorem OutTuple.toPorts_ledR (x : OutTuple) : x.toPorts.ledR = x.ledR := rfl

/-! ## The ring update -/

theorem filtWrite_ringSteer (s : State) (a b : Nat) :
    (s.filtWrite a b).ringSteer = s.ringSteer.set s.idx a := rfl

theorem filtWrite_ringDrive (s : State) (a b : Nat) :
    (s.filtWrite a b).ringDrive = s.ringDrive.set s.idx b := rfl

theorem filtWrite_idx (s : State) (a b : Nat) : (s.filtWrite a b).idx.val = (s.idx.val + 1) % 5 := rfl

/-- R76: a ring update leaves every field but the two rings and the position. -/
theorem filtWrite_frame (s : State) (a b : Nat) :
    s.filtWrite a b = { s with
      ringSteer := (s.filtWrite a b).ringSteer
      ringDrive := (s.filtWrite a b).ringDrive
      idx := (s.filtWrite a b).idx } := rfl

/-! ## The mode controller -/

@[simp] theorem otherMode_otherMode (m : Mode) : otherMode (otherMode m) = m := by cases m <;> rfl

theorem otherMode_ne (m : Mode) : otherMode m ≠ m := by cases m <;> decide

theorem otherMode_eq_of_ne {a m : Mode} (h : a ≠ m) : otherMode a = m := by
  cases a <;> cases m <;> first | rfl | exact absurd rfl h

/-- R88, R89: a force command does nothing, or enters the other mode with one notification. -/
theorem forceMode_cases (s : State) (m : Mode) :
    (s.mode = m ∧ s.forceMode m = s) ∨
    (s.mode ≠ m ∧ s.forceMode m = { s with mode := m, tx := s.tx ++ [notifyByte s.cfg m] }) := by
  unfold State.forceMode
  split_ifs with h
  · exact .inl ⟨h, rfl⟩
  · exact .inr ⟨h, rfl⟩

/-- R87: a crossing toggles the mode with one notification; without one only `prev_sel` changes. -/
theorem xing_cases (s : State) (v : Nat) :
    (crossing s.cfg s.prevSel v = true ∧ s.xing v = { s with
      mode := otherMode s.mode, tx := s.tx ++ [notifyByte s.cfg (otherMode s.mode)], prevSel := v }) ∨
    (crossing s.cfg s.prevSel v = false ∧ s.xing v = { s with prevSel := v }) := by
  unfold State.xing
  cases h : crossing s.cfg s.prevSel v
  · exact .inr ⟨rfl, rfl⟩
  · exact .inl ⟨rfl, rfl⟩

/-! ## The commands -/

/-- R99 to R103, R109: a steering command writes `steer_sym` in Autonomous and nothing in Manual. -/
theorem steerCommand_cases (s : State) (y : SteerSym) :
    (s.mode = .autonomous ∧ s.steerCommand y = { s with steerSym := y }) ∨
    (s.mode = .manual ∧ s.steerCommand y = s) := by
  unfold State.steerCommand
  cases h : s.mode
  · exact .inr ⟨rfl, by simp⟩
  · exact .inl ⟨rfl, by simp [State.setSteerSym, h]⟩

/-- R104 to R106, R109: a drive command writes `drive_sym` in Autonomous and nothing in Manual. -/
theorem driveCommand_cases (s : State) (y : DriveSym) :
    (s.mode = .autonomous ∧ s.driveCommand y = { s with driveSym := y }) ∨
    (s.mode = .manual ∧ s.driveCommand y = s) := by
  unfold State.driveCommand
  cases h : s.mode
  · exact .inr ⟨rfl, by simp⟩
  · exact .inl ⟨rfl, by simp [State.setDriveSym, h]⟩

/-- Everything one dispatched byte can do (R98): the mode with its notification, one intent register, or nothing. -/
theorem command_cases (s : State) (b : Byte) :
    (∃ m, s.mode ≠ m ∧
      s.command b = { s with mode := m, tx := s.tx ++ [notifyByte s.cfg m] }) ∨
    (∃ y, s.mode = .autonomous ∧ s.command b = { s with steerSym := y }) ∨
    (∃ y, s.mode = .autonomous ∧ s.command b = { s with driveSym := y }) ∨
    s.command b = s := by
  have force (m : Mode) : (∃ m', s.mode ≠ m' ∧
      s.forceMode m = { s with mode := m', tx := s.tx ++ [notifyByte s.cfg m'] }) ∨
      s.forceMode m = s :=
    (forceMode_cases s m).elim (fun h => .inr h.2) (fun h => .inl ⟨m, h⟩)
  have steer (y : SteerSym) : (∃ y', s.mode = .autonomous ∧ s.steerCommand y = { s with steerSym := y' }) ∨
      s.steerCommand y = s :=
    (steerCommand_cases s y).elim (fun h => .inl ⟨y, h⟩) (fun h => .inr h.2)
  have drive (y : DriveSym) : (∃ y', s.mode = .autonomous ∧ s.driveCommand y = { s with driveSym := y' }) ∨
      s.driveCommand y = s :=
    (driveCommand_cases s y).elim (fun h => .inl ⟨y, h⟩) (fun h => .inr h.2)
  unfold State.command
  cases decodeCmd s.cfg b
  case cmdForceAuto => exact (force _).elim .inl (fun h => .inr (.inr (.inr h)))
  case cmdForceManual => exact (force _).elim .inl (fun h => .inr (.inr (.inr h)))
  case cmdForward => exact (drive _).elim (fun h => .inr (.inr (.inl h))) (fun h => .inr (.inr (.inr h)))
  case cmdBackward => exact (drive _).elim (fun h => .inr (.inr (.inl h))) (fun h => .inr (.inr (.inr h)))
  case cmdNeutral => exact (drive _).elim (fun h => .inr (.inr (.inl h))) (fun h => .inr (.inr (.inr h)))
  case cmdStraight => exact (steer _).elim (fun h => .inr (.inl h)) (fun h => .inr (.inr (.inr h)))
  case cmdSoftLeft => exact (steer _).elim (fun h => .inr (.inl h)) (fun h => .inr (.inr (.inr h)))
  case cmdSoftRight => exact (steer _).elim (fun h => .inr (.inl h)) (fun h => .inr (.inr (.inr h)))
  case cmdHardLeft => exact (steer _).elim (fun h => .inr (.inl h)) (fun h => .inr (.inr (.inr h)))
  case cmdHardRight => exact (steer _).elim (fun h => .inr (.inl h)) (fun h => .inr (.inr (.inr h)))
  all_goals exact .inr (.inr (.inr rfl))

/-- A dispatched byte touches `mode`, `steer_sym`, `drive_sym` and `tx` only. -/
theorem command_frame (s : State) (b : Byte) :
    s.command b = { s with
      mode := (s.command b).mode, steerSym := (s.command b).steerSym
      driveSym := (s.command b).driveSym, tx := (s.command b).tx } := by
  rcases command_cases s b with ⟨m, _, h⟩ | ⟨y, _, h⟩ | ⟨y, _, h⟩ | h <;> rw [h]

/-! ## The drain -/

/-- R97: the drain is the fold of the dispatch over the queue, oldest byte first, and leaves the queue empty. -/
theorem drain_eq_foldl (s : State) :
    s.drain = s.rxq.foldl State.command { s with rxq := [] } := by
  have key : ∀ (q : List Byte) (s : State), s.rxq = q →
      State.drainLoop q.length s = q.foldl State.command { s with rxq := [] } := by
    intro q
    induction q with
    | nil =>
      intro s h
      simp only [List.length_nil, State.drainLoop, List.foldl_nil]
      rw [← h]
    | cons b q ih =>
      intro s h
      have hpop : s.popRx = some (b, { s with rxq := q }) := by simp [State.popRx, h]
      simp only [List.length_cons, State.drainLoop, hpop, List.foldl_cons]
      rw [ih _ (by rw [command_frame])]
      congr 1
      have hcfg (r : List Byte) : ({ s with rxq := r } : State).cfg = s.cfg := rfl
      unfold State.command
      rw [hcfg, hcfg]
      cases decodeCmd s.cfg b <;>
        simp only [State.runCommand, State.forceMode, State.steerCommand, State.driveCommand] <;>
        first | rfl | (split_ifs <;> rfl)
  exact key _ _ rfl

/-- What holds of the state with its queue taken and is kept by every dispatched byte holds after the drain. -/
theorem drain_induction {P : State → Prop} (s : State) (h0 : P { s with rxq := [] })
    (hstep : ∀ t b, P t → b ∈ s.rxq → P (t.command b)) : P s.drain := by
  rw [drain_eq_foldl]
  have key : ∀ (q : List Byte) (t : State), (∀ b ∈ q, b ∈ s.rxq) → P t → P (q.foldl State.command t) := by
    intro q
    induction q with
    | nil => intro t _ h; exact h
    | cons b q ih =>
      intro t hq h
      exact ih _ (fun x hx => hq x (List.mem_cons_of_mem _ hx)) (hstep t b h (hq b List.mem_cons_self))
  exact key _ _ (fun _ h => h) h0

/-- R97: the drain empties the queue and touches `mode`, `steer_sym`, `drive_sym` and `tx` besides. -/
theorem drain_frame (s : State) :
    s.drain = { s with
      rxq := [], mode := s.drain.mode, steerSym := s.drain.steerSym
      driveSym := s.drain.driveSym, tx := s.drain.tx } := by
  refine drain_induction (P := fun t => t = { s with
    rxq := [], mode := t.mode, steerSym := t.steerSym, driveSym := t.driveSym, tx := t.tx }) s rfl ?_
  intro t b ht _
  have hc := command_frame t b
  rw [hc, ht]

/-! ## The tick -/

/-- R136: what a tick past its gate leaves, in terms of its phases. -/
theorem runTick_eq (s : State) (m p : Nat) :
    s.runTick m p =
      let b := (s.setLastTick m).filtWrite (s.ch .steering).raw (s.ch .drive).raw
      let d := (b.xing (s.ch .modeSelect).raw).drain
      (d.emitRecord (d.outMap b.means.fSteer b.means.fDrive p).toPorts).setScratch {} := rfl

/-- R136: a tick answers its phases when the gate is open and nothing when it is closed. -/
theorem execTick_eq_next {s t : State} {m p : Nat} (h : execTick m p s = .next t) :
    (gateOpen s.cfg s.lastTickMs m = true ∧ t = s.runTick m p) ∨
    (gateOpen s.cfg s.lastTickMs m = false ∧ t = s) := by
  obtain ⟨_, _, h⟩ := atBoundary_eq_next.1 h
  cases hg : gateOpen s.cfg s.lastTickMs m <;> simp only [hg] at h
  · exact .inr ⟨rfl, h.symm⟩
  · exact .inl ⟨rfl, h.symm⟩

end Sys2Proof.Machine
end

