-- ==== Sys2Proof/Laws/Exec.lean ====
section
/-! SUPPORT. `exec` as one boundary check over one effect: the effect of each operation, which operands it checks, and the
lemma that says so for all of them. A proof about every operation splits on the operation once, here. -/

namespace Sys2Proof.Machine

/-- The state each operation leaves when it is admitted. -/
def effectOf (s : State) : Instr → State
  | .cmdForceAuto => s.forceMode .autonomous
  | .cmdForceManual => s.forceMode .manual
  | .cmdStraight => s.steerCommand .straight
  | .cmdSoftLeft => s.steerCommand .softLeft
  | .cmdSoftRight => s.steerCommand .softRight
  | .cmdHardLeft => s.steerCommand .hardLeft
  | .cmdHardRight => s.steerCommand .hardRight
  | .cmdForward => s.driveCommand .forward
  | .cmdBackward => s.driveCommand .backward
  | .cmdNeutral => s.driveCommand .neutral
  | .cmdIgnored _ => s
  | .notifyAuto => s.notify .autonomous
  | .notifyManual => s.notify .manual
  | .edgeRise c t => s.setCh c ((s.ch c).rise t)
  | .edgeFall c t => s.setCh c ((s.ch c).fall s.cfg.wUs t)
  | .rxPush b => s.pushRx b
  | .tick m p => if gateOpen s.cfg s.lastTickMs m then s.runTick m p else s
  | .snap => s.setScratch { s.scratch with snap := some s.snapshot }
  | .filtUpdate a b =>
    (s.filtWrite a b).setScratch { s.scratch with filt := some (s.filtWrite a b).means }
  | .modeXing v => s.xing v
  | .cmdDrain => s.drain
  | .outMap f g p => s.setScratch { s.scratch with out := some (s.outMap f g p) }
  | .outEmit a p l r => s.emitRecord (OutTuple.mk a p l r).toPorts

/-- Which operands each operation checks (R145). -/
def operandsFit (cfg : Cfg) : Instr → Bool
  | .cmdForceAuto | .cmdForceManual | .cmdStraight | .cmdSoftLeft | .cmdSoftRight | .cmdHardLeft
  | .cmdHardRight | .cmdForward | .cmdBackward | .cmdNeutral | .cmdIgnored _ | .notifyAuto
  | .notifyManual | .rxPush _ | .snap | .cmdDrain => true
  | .edgeRise _ t | .edgeFall _ t => fitsUs cfg t
  | .tick m p => fitsMs cfg m && fitsMs cfg p
  | .filtUpdate a b => fitsUs cfg a && fitsUs cfg b
  | .modeXing v => fitsUs cfg v
  | .outMap f g p => fitsUs cfg f && fitsUs cfg g && fitsMs cfg p
  | .outEmit a p _ _ => fitsAngle a && fitsPulse p

/-- Every operation is the boundary check over its effect. -/
theorem exec_eq_atBoundary (i : Instr) (s : State) :
    exec i s = s.atBoundary (operandsFit s.cfg i) (effectOf s i) := by
  cases i <;> rfl

/-- Everything an operation can do: if it answers a next state, it is its effect. -/
theorem exec_eq_next {i : Instr} {s t : State} :
    exec i s = .next t ↔ s.cfg.wf = true ∧ operandsFit s.cfg i = true ∧ t = effectOf s i := by
  rw [exec_eq_atBoundary, atBoundary_eq_next, eq_comm (a := t)]

/-- A well-formed term has operands that fit. -/
theorem operandsFit_of_wf {cfg : Cfg} {i : Instr} (h : i.wf cfg = true) : operandsFit cfg i = true := by
  cases i <;> first | rfl | exact h

/-- An event's operands fit exactly when the event is well formed. -/
theorem Event.operandsFit_eq_wf (cfg : Cfg) (e : Event) : operandsFit cfg e.toInstr = e.wf cfg := by
  cases e <;> rfl

/-- A tick's effect on the fields that no phase writes. -/
theorem runTick_chans (s : State) (m p : Nat) : (s.runTick m p).chans = s.chans := by
  rw [runTick_eq]
  dsimp only
  rw [State.setScratch_chans, State.emitRecord_chans, drain_frame]
  dsimp only
  rcases xing_cases ((s.setLastTick m).filtWrite (s.ch .steering).raw (s.ch .drive).raw)
    (s.ch .modeSelect).raw with ⟨_, h⟩ | ⟨_, h⟩ <;> rw [h] <;> rfl

/-- No operation writes the configuration (R4). -/
theorem effectOf_cfg (s : State) (i : Instr) : (effectOf s i).cfg = s.cfg := by
  cases i
  case tick m p =>
    simp only [effectOf]
    split_ifs
    · rw [runTick_eq]
      dsimp only
      rw [State.setScratch_cfg, State.emitRecord_cfg, drain_frame]
      dsimp only
      rcases xing_cases ((s.setLastTick m).filtWrite (s.ch .steering).raw (s.ch .drive).raw)
        (s.ch .modeSelect).raw with ⟨_, h⟩ | ⟨_, h⟩ <;> rw [h] <;> rfl
    · rfl
  case cmdDrain => simp only [effectOf]; rw [drain_frame]
  case modeXing v => rcases xing_cases s v with ⟨_, h⟩ | ⟨_, h⟩ <;> simp only [effectOf, h]
  case cmdForceAuto => rcases forceMode_cases s .autonomous with ⟨_, h⟩ | ⟨_, h⟩ <;> simp only [effectOf, h]
  case cmdForceManual => rcases forceMode_cases s .manual with ⟨_, h⟩ | ⟨_, h⟩ <;> simp only [effectOf, h]
  all_goals first
    | rfl
    | (simp only [effectOf, State.steerCommand, State.driveCommand]; split_ifs <;> rfl)

/-- No operation writes the environment's schedule. -/
theorem effectOf_pending (s : State) (i : Instr) : (effectOf s i).pending = s.pending := by
  cases i
  case tick m p =>
    simp only [effectOf]
    split_ifs
    · rw [runTick_eq]
      dsimp only
      rw [State.setScratch_pending, State.emitRecord_pending, drain_frame]
      dsimp only
      rcases xing_cases ((s.setLastTick m).filtWrite (s.ch .steering).raw (s.ch .drive).raw)
        (s.ch .modeSelect).raw with ⟨_, h⟩ | ⟨_, h⟩ <;> rw [h] <;> rfl
    · rfl
  case cmdDrain => simp only [effectOf]; rw [drain_frame]
  case modeXing v => rcases xing_cases s v with ⟨_, h⟩ | ⟨_, h⟩ <;> simp only [effectOf, h]
  case cmdForceAuto => rcases forceMode_cases s .autonomous with ⟨_, h⟩ | ⟨_, h⟩ <;> simp only [effectOf, h]
  case cmdForceManual => rcases forceMode_cases s .manual with ⟨_, h⟩ | ⟨_, h⟩ <;> simp only [effectOf, h]
  all_goals first
    | rfl
    | (simp only [effectOf, State.steerCommand, State.driveCommand]; split_ifs <;> rfl)

end Sys2Proof.Machine
end

