-- ==== Sys2Proof/Laws/PerInstr.lean ====
section
/-! SUPPORT. The families of per-instruction statements (LAWS.json): one lemma per constructor of `Instr`. -/

namespace Sys2Proof.Laws.OneByte

/-- 30_encoding.md R45: "both are one byte long". The encoding of an operation of an encoded format is one byte; no other
operation is longer. -/
def Statement (i : Instr) : Prop :=
  ∀ cfg : Cfg, (encode cfg i).length ≤ 1 ∧
    (i.format = .cmd ∨ i.format = .sts → (encode cfg i).length = 1)

theorem cmdForceAuto : Statement .cmdForceAuto := fun _ => ⟨le_refl 1, fun _ => rfl⟩
theorem cmdForceManual : Statement .cmdForceManual := fun _ => ⟨le_refl 1, fun _ => rfl⟩
theorem cmdStraight : Statement .cmdStraight := fun _ => ⟨le_refl 1, fun _ => rfl⟩
theorem cmdSoftLeft : Statement .cmdSoftLeft := fun _ => ⟨le_refl 1, fun _ => rfl⟩
theorem cmdSoftRight : Statement .cmdSoftRight := fun _ => ⟨le_refl 1, fun _ => rfl⟩
theorem cmdHardLeft : Statement .cmdHardLeft := fun _ => ⟨le_refl 1, fun _ => rfl⟩
theorem cmdHardRight : Statement .cmdHardRight := fun _ => ⟨le_refl 1, fun _ => rfl⟩
theorem cmdForward : Statement .cmdForward := fun _ => ⟨le_refl 1, fun _ => rfl⟩
theorem cmdBackward : Statement .cmdBackward := fun _ => ⟨le_refl 1, fun _ => rfl⟩
theorem cmdNeutral : Statement .cmdNeutral := fun _ => ⟨le_refl 1, fun _ => rfl⟩
theorem cmdIgnored (b : Byte) : Statement (.cmdIgnored b) := fun _ => ⟨le_refl 1, fun _ => rfl⟩
theorem notifyAuto : Statement .notifyAuto := fun _ => ⟨le_refl 1, fun _ => rfl⟩
theorem notifyManual : Statement .notifyManual := fun _ => ⟨le_refl 1, fun _ => rfl⟩
theorem edgeRise (c : Chan) (t : Nat) : Statement (.edgeRise c t) := fun _ => ⟨by simp [encode], by simp [Instr.format]⟩
theorem edgeFall (c : Chan) (t : Nat) : Statement (.edgeFall c t) := fun _ => ⟨by simp [encode], by simp [Instr.format]⟩
theorem rxPush (b : Byte) : Statement (.rxPush b) := fun _ => ⟨by simp [encode], by simp [Instr.format]⟩
theorem tick (m p : Nat) : Statement (.tick m p) := fun _ => ⟨by simp [encode], by simp [Instr.format]⟩
theorem snap : Statement .snap := fun _ => ⟨by simp [encode], by simp [Instr.format]⟩
theorem filtUpdate (a b : Nat) : Statement (.filtUpdate a b) := fun _ => ⟨by simp [encode], by simp [Instr.format]⟩
theorem modeXing (v : Nat) : Statement (.modeXing v) := fun _ => ⟨by simp [encode], by simp [Instr.format]⟩
theorem cmdDrain : Statement .cmdDrain := fun _ => ⟨by simp [encode], by simp [Instr.format]⟩
theorem outMap (f g p : Nat) : Statement (.outMap f g p) := fun _ => ⟨by simp [encode], by simp [Instr.format]⟩
theorem outEmit (a p : Nat) (l r : Bool) : Statement (.outEmit a p l r) := fun _ => ⟨by simp [encode], by simp [Instr.format]⟩

end Sys2Proof.Laws.OneByte
end

