-- ==== Sys2Proof/Tests/Slice0.lean ====
section
/-! SUPPORT. Tests: the refusals of WellFormed, the words of the encoding tables, one step of each operation on the values of
95_test_vectors.md, and for each obligation with hypotheses a concrete case that meets them. -/

namespace Sys2Proof.Machine.Tests

/-! ## Helpers -/

/-- The outcome is a next state with the property `p`. -/
def leads (o : Host.Outcome State Fault Refusal) (p : State → Bool) : Bool := (nextState o).any p

theorem next_of_leads {o : Host.Outcome State Fault Refusal} {p : State → Bool} (h : leads o p = true) :
    ∃ t, o = .next t ∧ p t = true := by
  cases o with
  | next t => exact ⟨t, rfl, h⟩
  | fault r => exact nomatch r
  | refused r => exact Bool.noConfusion h

theorem two_nexts {o o' : Host.Outcome State Fault Refusal} {p p' : State → Bool} (h : leads o p = true)
    (h' : leads o' p' = true) : ∃ t t', o = .next t ∧ o' = .next t' ∧ p t = true ∧ p' t' = true :=
  let ⟨t, e, f⟩ := next_of_leads h
  let ⟨t', e', f'⟩ := next_of_leads h'
  ⟨t, t', e, e', f, f'⟩

/-- Reset, in Autonomous, with an intent of its own. -/
def auto : State := { State.reset with mode := .autonomous, steerSym := .hardLeft, driveSym := .backward }

/-- A state in the middle of a drive: Autonomous, one record out, an armed channel near the wrap. -/
def busy : State :=
  { State.reset with
    chans := ⟨⟨900, 4294967295, true, true⟩, ⟨1900, 7, false, false⟩, ⟨1600, 0, false, true⟩⟩
    ringSteer := #v[900, 1501, 1500, 0, 4294967295]
    idx := 3, mode := .autonomous, prevSel := 1600, steerSym := .softLeft, driveSym := .backward
    lastTickMs := 4294967290, outAngle := some 65, outDriveUs := some 1400, outLedL := some true
    outLedR := some true, tx := [0x41], records := [⟨65, 1400, true, true⟩]
    rxq := [0x46], pending := [.event (.edgeFall .steering 899), .command 0x4D] }

theorem busy_inv : busy.Inv where
  cfgWf := by decide
  chansFit := by intro c; cases c <;> exact ⟨by decide, by decide⟩
  steerFits := by decide
  driveFits := by decide
  prevFits := by decide
  lastFits := by decide
  recordsInRange := by
    intro r hr
    obtain rfl : r = ⟨65, 1400, true, true⟩ := by simpa [busy] using hr
    exact ⟨⟨65, 1400, true, true⟩, ⟨by decide, by decide, by decide⟩, by decide⟩
  portsShow := ⟨rfl, rfl, rfl, rfl⟩
  txAlternates := by decide
  scratchEmpty := by decide
  pendingFits := by decide

/-! ## WellFormed: one ill-formed term for each check -/

theorem wf_refuses_edgeRise : (Instr.edgeRise .drive (2 ^ 32)).wf Cfg.default = false := by decide
theorem wf_refuses_edgeFall : (Instr.edgeFall .drive (2 ^ 32)).wf Cfg.default = false := by decide
theorem wf_refuses_tick_now : (Instr.tick (2 ^ 32) 0).wf Cfg.default = false := by decide
theorem wf_refuses_tick_phase : (Instr.tick 0 (2 ^ 32)).wf Cfg.default = false := by decide
theorem wf_refuses_filt_steer : (Instr.filtUpdate (2 ^ 32) 0).wf Cfg.default = false := by decide
theorem wf_refuses_filt_drive : (Instr.filtUpdate 0 (2 ^ 32)).wf Cfg.default = false := by decide
theorem wf_refuses_modeXing : (Instr.modeXing (2 ^ 32)).wf Cfg.default = false := by decide
theorem wf_refuses_outMap_steer : (Instr.outMap (2 ^ 32) 0 0).wf Cfg.default = false := by decide
theorem wf_refuses_outMap_drive : (Instr.outMap 0 (2 ^ 32) 0).wf Cfg.default = false := by decide
theorem wf_refuses_outMap_phase : (Instr.outMap 0 0 (2 ^ 32)).wf Cfg.default = false := by decide
theorem wf_refuses_outEmit_angle : (Instr.outEmit 256 0 false false).wf Cfg.default = false := by decide
theorem wf_refuses_outEmit_pulse : (Instr.outEmit 0 65536 false false).wf Cfg.default = false := by decide
theorem wf_refuses_ignored_command : (Instr.cmdIgnored 0x53).wf Cfg.default = false := by decide
theorem wf_refuses_event : (Event.edgeRise .drive (2 ^ 32)).wf Cfg.default = false := by decide
theorem wf_refuses_lines :
    (TraceLine.rise .drive (2 ^ 32)).wf Cfg.default = false ∧
    (TraceLine.fall .drive (2 ^ 32)).wf Cfg.default = false ∧
    (TraceLine.tick (2 ^ 32)).wf Cfg.default = false ∧
    (TraceLine.tickPhase (2 ^ 32) 0).wf Cfg.default = false ∧
    (TraceLine.tickPhase 0 (2 ^ 32)).wf Cfg.default = false ∧
    (TraceLine.pulse .drive (2 ^ 32) 0).wf Cfg.default = false ∧
    (TraceLine.pulse .drive 0 (2 ^ 32)).wf Cfg.default = false := by decide
theorem wf_refuses_stimulus : (Stimulus.event (.tick (2 ^ 32) 0)).wf Cfg.default = false := by decide

theorem cfg_refuses_counts : ¬ { Cfg.default with n := 4 }.WfCounts := by decide
theorem cfg_refuses_ranges : ¬ { Cfg.default with steerInMaxUs := 900 }.WfRanges := by decide
theorem cfg_refuses_symmetric_deadband : ¬ { Cfg.default with driveRevThreshUs := 1400 }.WfDeadband := by
  decide
theorem cfg_refuses_forward : ¬ { Cfg.default with driveFwdThreshUs := 1900 }.WfForward := by decide
theorem cfg_refuses_times : ¬ { Cfg.default with blinkOnMs := 400 }.WfTimes := by decide
theorem cfg_refuses_angles : ¬ { Cfg.default with angleHardLeft := 44 }.WfAngles := by decide
theorem cfg_refuses_bytes : ¬ { Cfg.default with cmdNeutral := 0x41 }.WfBytes := by decide
theorem cfg_refuses_sides : ¬ { Cfg.default with prevResetUs := 1501 }.WfSides := by decide
theorem cfg_refuses_widths : ¬ { Cfg.default with wUs := 10 }.WfWidths := by decide
theorem cfg_refuses_centre : ¬ { Cfg.default with turnDeadbandDeg := 91 }.WfCentre := by decide
theorem cfg_accepts_defaults : Cfg.default.wf = true ∧ { Cfg.default with n := 4 }.wf = false := by decide

/-! ## Decoding: words written out from the tables of 30_encoding.md sections 2, 4 and 5 -/

theorem decodes_forceAuto : decode Cfg.default [0b01000001#8] = .ok (.cmdForceAuto, []) := by decide
theorem decodes_forceManual : decode Cfg.default [0b01001101#8] = .ok (.cmdForceManual, []) := by decide
theorem decodes_straight : decode Cfg.default [0b01010011#8] = .ok (.cmdStraight, []) := by decide
theorem decodes_softLeft : decode Cfg.default [0b01101100#8] = .ok (.cmdSoftLeft, []) := by decide
theorem decodes_softRight : decode Cfg.default [0b01110010#8] = .ok (.cmdSoftRight, []) := by decide
theorem decodes_hardLeft : decode Cfg.default [0b01001100#8] = .ok (.cmdHardLeft, []) := by decide
theorem decodes_hardRight : decode Cfg.default [0b01010010#8] = .ok (.cmdHardRight, []) := by decide
theorem decodes_forward : decode Cfg.default [0b01000110#8] = .ok (.cmdForward, []) := by decide
theorem decodes_backward : decode Cfg.default [0b01000010#8] = .ok (.cmdBackward, []) := by decide
theorem decodes_neutral : decode Cfg.default [0b01001110#8] = .ok (.cmdNeutral, []) := by decide
theorem decodes_ignored : decode Cfg.default [0b01100001#8, 0x41] = .ok (.cmdIgnored 0x61, [0x41]) := by
  decide
theorem decodes_notifyAuto : decodeStatus Cfg.default [0b01000001#8] = .ok (.notifyAuto, []) := by decide
theorem decodes_notifyManual : decodeStatus Cfg.default [0b01001101#8] = .ok (.notifyManual, []) := by
  decide
theorem decode_refuses_by_name :
    decode Cfg.default [] = .error .noByte ∧ decodeStatus Cfg.default [] = .error .noByte ∧
    decodeStatus Cfg.default [0x42] = .error (.notAStatus 0x42) := by decide
/-- Events and phases have no bit encoding; a received byte is the byte itself. -/
theorem events_and_phases_have_no_word :
    encode Cfg.default (.edgeRise .drive 5) = [] ∧ encode Cfg.default (.edgeFall .drive 5) = [] ∧
    encode Cfg.default (.tick 1 2) = [] ∧ encode Cfg.default .snap = [] ∧
    encode Cfg.default (.filtUpdate 1 2) = [] ∧ encode Cfg.default (.modeXing 1) = [] ∧
    encode Cfg.default .cmdDrain = [] ∧ encode Cfg.default (.outMap 1 2 3) = [] ∧
    encode Cfg.default (.outEmit 1 2 true true) = [] ∧ encode Cfg.default (.rxPush 0x46) = [0x46] ∧
    decodeTableWord 0 0 = none := by decide
/-- The encoding of program P2's inbound stream (95_test_vectors.md section 3). -/
theorem encodes_p2 :
    encodeTrace Cfg.default [.pulse .modeSelect 1000 1400, .tick 10, .rx 0x46, .rx 0x6C, .tick 30, .rx 0x42,
      .tickPhase 240 240, .rxs [0x41]] = [0x46, 0x6C, 0x42, 0x41] := by decide
/-- A table word runs as the first operation after reset. -/
theorem first_word_runs :
    leads (step (State.reset.withFetchWord 8 0x41)) (fun t => decide (t.mode = .autonomous ∧ t.pending = []))
      = true := by decide

/-! ## One step of each operation, expected values from 95_test_vectors.md and the rules' examples -/

/-- R66's example. -/
theorem test_edgeRise :
    leads (exec (.edgeRise .steering 1000) State.reset)
      (fun t => decide (t.ch .steering = ⟨1500, 1000, true, true⟩ ∧ t.ch .drive = ⟨1500, 0, false, false⟩))
      = true := by decide
/-- V-CAP-6, the wrap. -/
theorem test_edgeFall_wraps :
    leads (exec (.edgeFall .drive 0x4DC) (State.reset.setCh .drive ⟨1500, 0xFFFFFF00, true, true⟩))
      (fun t => decide (t.ch .drive = ⟨1500, 4294967040, false, false⟩)) = true := by decide
/-- V-CAP-3, no start pending. -/
theorem test_edgeFall_ignored :
    leads (exec (.edgeFall .steering 500) (State.reset.setCh .steering ⟨900, 7, false, true⟩))
      (fun t => decide (t.ch .steering = ⟨900, 7, false, false⟩)) = true := by decide
/-- R96's example. -/
theorem test_rxPush :
    leads (exec (.rxPush 0x6C) { State.reset with rxq := [0x46] }) (fun t => decide (t.rxq = [0x46, 0x6C]))
      = true := by decide
/-- Program P1, the tick at 30. -/
theorem test_tick :
    leads (exec (.tick 30 30) { State.reset with
        chans := ⟨⟨900, 0, false, false⟩, ⟨1900, 0, false, false⟩, ⟨1500, 0, false, false⟩⟩
        ringSteer := #v[900, 900, 1500, 1500, 1500], ringDrive := #v[1900, 1900, 1500, 1500, 1500]
        idx := 2, lastTickMs := 20 })
      (fun t => decide (t.records = [⟨69, 1600, true, false⟩] ∧ t.lastTickMs = 30 ∧ t.idx = 3 ∧
        t.outAngle = some 69)) = true := by decide
/-- V-GATE-4, nine milliseconds across the wrap: closed. -/
theorem test_tick_closed :
    leads (exec (.tick 3 3) { State.reset with lastTickMs := 4294967290 })
      (fun t => decide (t.records = [] ∧ t.lastTickMs = 4294967290 ∧ t.idx = 0)) = true := by decide
/-- R36: the three raw widths. -/
theorem test_snap :
    leads (exec .snap busy) (fun t => decide (t.scratch.snap = some ⟨900, 1900, 1600⟩)) = true := by decide
/-- V-FILT-6: the sixth insertion overwrites the oldest slot. -/
theorem test_filtUpdate_overwrites_oldest :
    leads (exec (.filtUpdate 0 1900) { State.reset with ringSteer := #v[1501, 1504, 1503, 1502, 1501] })
      (fun t => decide (t.ringSteer = #v[0, 1504, 1503, 1502, 1501] ∧ t.scratch.filt = some ⟨1202, 1580⟩))
      = true := by decide
/-- V-FILT-7: the sum needs 35 bits. -/
theorem test_filtUpdate_wide_sum :
    leads (exec (.filtUpdate 4294967295 1500) { State.reset with
        ringSteer := #v[4294967295, 4294967295, 4294967295, 4294967295, 1501], idx := 4 })
      (fun t => decide (t.scratch.filt = some ⟨4294967295, 1500⟩ ∧ t.idx = 0)) = true := by decide
/-- V-MODE-6: an upward crossing can leave Autonomous. -/
theorem test_modeXing_toggles :
    leads (exec (.modeXing 1600) { auto with prevSel := 1400 })
      (fun t => decide (t.mode = .manual ∧ t.prevSel = 1600 ∧ t.tx = [0x4D])) = true := by decide
/-- V-MODE-5: the threshold itself is on the low side. -/
theorem test_modeXing_low_side :
    leads (exec (.modeXing 1500) { State.reset with prevSel := 1499 })
      (fun t => decide (t.mode = .manual ∧ t.prevSel = 1500 ∧ t.tx = [])) = true := by decide
/-- V-CMD-7: gating follows the mode at each byte. -/
theorem test_cmdDrain_gating :
    leads (exec .cmdDrain { State.reset with rxq := [0x46, 0x41, 0x46] })
      (fun t => decide (t.mode = .autonomous ∧ t.driveSym = .forward ∧ t.tx = [0x41] ∧ t.rxq = []))
      = true := by decide
/-- V-CMD-11: four transitions in one drain. -/
theorem test_cmdDrain_transitions :
    leads (exec .cmdDrain { State.reset with rxq := [0x41, 0x4D, 0x41, 0x4D] })
      (fun t => decide (t.mode = .manual ∧ t.tx = [0x41, 0x4D, 0x41, 0x4D])) = true := by decide
/-- V-OUT-6: brake beats turn, although the blink phase is off. -/
theorem test_outMap_brake :
    leads (exec (.outMap 900 1000 300) State.reset)
      (fun t => decide (t.scratch.out = some ⟨45, 1400, true, true⟩)) = true := by decide
/-- V-OUT-8. -/
theorem test_outMap_autonomous :
    leads (exec (.outMap 1500 1500 450) { auto with steerSym := .hardRight, driveSym := .forward })
      (fun t => decide (t.scratch.out = some ⟨135, 1600, false, true⟩)) = true := by decide
/-- R130's example. -/
theorem test_outEmit :
    leads (exec (.outEmit 45 1600 true false) State.reset)
      (fun t => decide (t.outAngle = some 45 ∧ t.outDriveUs = some 1600 ∧ t.outLedL = some true ∧
        t.outLedR = some false ∧ t.records = [⟨45, 1600, true, false⟩])) = true := by decide
/-- R54: the widths of the two servo ports; a value beyond its port leaves the free one. -/
theorem test_port_widths :
    anglePort 255 = 255 ∧ anglePort 256 = Config.wideAngle 256 ∧ pulsePort 65535 = 65535 ∧
    pulsePort 65536 = Config.widePulse 65536 := ⟨rfl, rfl, rfl, rfl⟩
/-- V-MODE-8. -/
theorem test_forceAuto :
    leads (exec .cmdForceAuto State.reset) (fun t => decide (t.mode = .autonomous ∧ t.tx = [0x41])) = true := by
  decide
/-- V-MODE-9: no duplicate notification. -/
theorem test_forceAuto_again : exec .cmdForceAuto auto = .next auto := rfl
/-- V-MODE-10. -/
theorem test_forceManual :
    leads (exec .cmdForceManual auto) (fun t => decide (t.mode = .manual ∧ t.tx = [0x4D])) = true := by decide
/-- V-MODE-11. -/
theorem test_forceManual_again : exec .cmdForceManual State.reset = .next State.reset := rfl
/-- V-CMD-4, one byte at a time, and V-CMD-5. -/
theorem test_straight : leads (exec .cmdStraight auto) (fun t => decide (t.steerSym = .straight)) = true := by
  decide
theorem test_softLeft : leads (exec .cmdSoftLeft auto) (fun t => decide (t.steerSym = .softLeft)) = true := by
  decide
theorem test_softRight : leads (exec .cmdSoftRight auto) (fun t => decide (t.steerSym = .softRight)) = true := by
  decide
theorem test_hardLeft :
    leads (exec .cmdHardLeft { auto with steerSym := .straight }) (fun t => decide (t.steerSym = .hardLeft))
      = true := by decide
theorem test_hardRight : leads (exec .cmdHardRight auto) (fun t => decide (t.steerSym = .hardRight)) = true := by
  decide
/-- V-CMD-6: gated off in Manual. -/
theorem test_hardLeft_gated : exec .cmdHardLeft State.reset = .next State.reset := rfl
/-- V-CMD-1 to V-CMD-3. -/
theorem test_forward : leads (exec .cmdForward auto) (fun t => decide (t.driveSym = .forward)) = true := by decide
theorem test_backward :
    leads (exec .cmdBackward { auto with driveSym := .neutral }) (fun t => decide (t.driveSym = .backward))
      = true := by decide
theorem test_neutral : leads (exec .cmdNeutral auto) (fun t => decide (t.driveSym = .neutral)) = true := by decide
/-- V-CMD-6: gated off in Manual. -/
theorem test_forward_gated : exec .cmdForward State.reset = .next State.reset := rfl
/-- V-CMD-9: a lower case letter that is no command. -/
theorem test_ignored : exec (.cmdIgnored 0x61) auto = .next auto := rfl
/-- R90: one byte, nothing else. -/
theorem test_notifyAuto : exec .notifyAuto auto = .next { auto with tx := [0x41] } := rfl
theorem test_notifyManual : exec .notifyManual auto = .next { auto with tx := [0x4D] } := rfl
/-- The steering map's row of 95_test_vectors.md section 2.5. -/
theorem test_steerManual_row :
    [0, 899, 900, 909, 910, 919, 920, 1349, 1350, 1359, 1380, 1499, 1500, 1505, 1799, 1800, 1801, 5000,
      4294967295].map (steerManual Cfg.default) =
    [45, 45, 45, 45, 46, 46, 47, 89, 90, 90, 93, 104, 105, 105, 134, 135, 135, 135, 135] := by decide
/-- The turn row of section 2.5. -/
theorem test_turn_row :
    [69, 70, 90, 105, 110, 111].map (fun a => (turnLeft Cfg.default a, turnRight Cfg.default a)) =
    [(true, false), (false, false), (false, false), (false, false), (false, false), (false, true)] := by decide
/-- R145: what is refused at the boundary. -/
theorem test_refusals :
    exec .snap { State.reset with cfg := { Cfg.default with tickMs := 0 } } = .refused .illFormedConfig ∧
    exec (.tick (2 ^ 32) 0) State.reset = .refused .operandOutOfWidth := ⟨rfl, rfl⟩

/-! ## Witnesses: for each obligation with hypotheses, a concrete case that meets them, clause by clause -/

theorem witness_DecodeInvertsEncode :
    Cfg.default.wf = true ∧
    ((Instr.cmdIgnored 0x61).wf Cfg.default = true ∧ (Instr.cmdIgnored 0x61).format = .cmd) ∧
    (Instr.notifyManual.wf Cfg.default = true ∧ Instr.notifyManual.format = .sts) ∧
    ((Instr.outEmit 255 65535 true false).wf Cfg.default = true ∧
      (Instr.outEmit 255 65535 true false).format = .phase) := by decide

/-- The premise `cfg.wf = true` alone: EveryByteIsOneCommand, TwoHundredFortySixBytesAreIgnored, ResetMeetsInvariant; and a
second configuration, with narrow counters and the turn sides exchanged. -/
theorem witness_EveryByteIsOneCommand : Cfg.default.wf = true := by decide
theorem witness_TwoHundredFortySixBytesAreIgnored : Cfg.default.wf = true := by decide
theorem witness_ResetMeetsInvariant :
    { Cfg.default with wUs := 11, wMs := 9, leftIsLowAngle := false }.wf = true := by decide

theorem witness_StepKeepsInvariant : busy.Inv ∧ ∃ t, step busy = .next t ∧
    decide ((t.ch .steering).raw = 900) = true := ⟨busy_inv, next_of_leads (by decide)⟩

theorem witness_AdmittedRunsComplete : busy.Inv ∧
    ∀ e ∈ [Event.edgeFall .steering 4294967295, .rxPush 0x46, .tick 4 0], e.wf busy.cfg = true :=
  ⟨busy_inv, by decide⟩

theorem witness_OnlyTheBoundaryRefuses :
    (State.reset.cfg.wf = true ∧ (Instr.modeXing 4294967295).wf State.reset.cfg = true) ∧
    { State.reset with cfg := { Cfg.default with tickMs := 0 } }.cfg.wf = false ∧
    exec (.modeXing 4294967296) State.reset = .refused .operandOutOfWidth :=
  ⟨by decide, by decide, rfl⟩

theorem witness_StepRunsTheDecodedOperation :
    busy.pending = .event (.edgeFall .steering 899) :: [.command 0x4D] ∧
    ({ busy with pending := [.command 0x4D] }.pending = .command 0x4D :: [] ∧
      decode busy.cfg [0x4D] = .ok (.cmdForceManual, [])) ∧
    (State.reset.pending = [] ∧ State.reset.cfg.wf = true) := by decide

theorem witness_HostRunIsTheRunOfEvents : auto.pending = [] ∧
    ∃ t, runEvents [.rxPush 0x46, .tick 10 10] auto = .next t ∧
      decide (t.records = [⟨45, 1600, true, false⟩]) = true :=
  ⟨rfl, next_of_leads (by decide)⟩

theorem witness_ConfigurationIsNeverWritten :
    ∃ t, exec (.tick 10 10) State.reset = .next t ∧ decide (t.records.length = 1) = true :=
  next_of_leads (by decide)

theorem witness_CaptureGroupOwnership :
    ((∃ t, exec (.tick 10 10) busy = .next t ∧ decide (t.mode = .autonomous) = true) ∧
      ∀ c now, Instr.tick 10 10 ≠ .edgeRise c now ∧ Instr.tick 10 10 ≠ .edgeFall c now) ∧
    (Event.isEdgeOf .steering (.edgeFall .steering 899) = true ∧
      { busy with mode := .manual }.cfg = busy.cfg ∧ { busy with mode := .manual }.chans = busy.chans ∧
      ∃ t t', exec (.edgeFall .steering 899) busy = .next t ∧
        exec (.edgeFall .steering 899) { busy with mode := .manual } = .next t' ∧
        decide ((t.ch .steering).raw = 900) = true ∧ decide ((t'.ch .steering).raw = 900) = true) ∧
    (∀ c, ((busy.chans.set .steering ⟨900, 3, false, false⟩).get c).raw = (busy.ch c).raw) :=
  ⟨⟨next_of_leads (by decide), fun _ _ => ⟨nofun, nofun⟩⟩,
   ⟨rfl, rfl, rfl, two_nexts (by decide) (by decide)⟩, by intro c; cases c <;> rfl⟩

theorem witness_ObservationOnlyGrows :
    (∃ t, exec (.tick 4 4) busy = .next t ∧ decide (t.records.length = 2) = true) ∧
    (∃ t, exec (.edgeRise .drive 0) busy = .next t ∧ decide ((t.ch .drive).armed = true) = true) ∧
    (∃ t, exec (.rxPush 0) busy = .next t ∧ decide (t.rxq = [0x46, 0]) = true) :=
  ⟨next_of_leads (by decide), next_of_leads (by decide), next_of_leads (by decide)⟩

theorem witness_EverySampleSequenceHasTrueTimes : ∀ v ∈ [2047, 0, 2047, 5], v < 2 ^ 11 := by decide

theorem witness_EdgeRiseArmsItsChannel : State.reset.cfg.wf = true ∧ 4294967295 < 2 ^ State.reset.cfg.wUs := by
  decide

/-- Armed, armed with a true elapsed time at its largest, and not armed. -/
theorem witness_EdgeFallPublishesElapsedTime :
    busy.cfg.wf = true ∧ 4294967294 < 2 ^ busy.cfg.wUs ∧ (busy.ch .steering).armed = true ∧
    (4294967295 < 2 ^ busy.cfg.wUs ∧ (busy.ch .steering).start < 2 ^ busy.cfg.wUs ∧
      4294967294 = ((busy.ch .steering).start + 4294967295) % 2 ^ busy.cfg.wUs) ∧
    (busy.ch .drive).armed = false := by decide

theorem witness_EdgesOfDifferentChannelsCommute :
    Event.isEdgeOf .steering (.edgeFall .steering 899) = true ∧
    Event.isEdgeOf .drive (.edgeRise .drive 5) = true ∧ Chan.steering ≠ Chan.drive ∧
    ∃ t, runEvents [.edgeFall .steering 899, .edgeRise .drive 5] busy = .next t ∧
      decide ((t.ch .steering).raw = 900) = true :=
  ⟨rfl, rfl, by decide, next_of_leads (by decide)⟩

/-- V-CAP-9 with a byte and a tick in between. -/
theorem witness_OwnEventsDecideAChannel :
    ∃ t, runEvents [.edgeRise .steering 100, .edgeRise .drive 150, .rxPush 0x46, .edgeFall .steering 1600,
        .tick 10 10, .edgeFall .drive 2050] State.reset = .next t ∧
      decide (t.ch .steering = ⟨1500, 100, false, false⟩ ∧ t.ch .drive = ⟨1900, 150, false, false⟩) = true :=
  next_of_leads (by decide)

/-- The event lists of the clauses: a last rise, a last fall, a rise and a fall, two falls, one fall not armed. -/
theorem witness_CapturePairsTheLastRise :
    (∃ t, runEvents [.edgeFall .steering 3, .edgeRise .steering 0] State.reset = .next t ∧
      decide ((t.ch .steering).armed = true) = true) ∧
    (∃ t, runEvents [.edgeRise .steering 4294967295, .edgeFall .steering 0] State.reset = .next t ∧
      decide ((t.ch .steering).raw = 1) = true) ∧
    (∃ t u, runEvents [.edgeRise .steering 1, .edgeFall .steering 3, .edgeFall .steering 9] State.reset = .next t ∧
      runEvents [.edgeRise .steering 1, .edgeFall .steering 3] State.reset = .next u ∧
      decide ((t.ch .steering).raw = 2) = true ∧ decide ((u.ch .steering).raw = 2) = true) ∧
    ((∃ t, runEvents [.edgeFall .steering 500] State.reset = .next t ∧
      decide ((t.ch .steering).raw = 1500) = true) ∧ (State.reset.ch .steering).armed = false) :=
  ⟨next_of_leads (by decide), next_of_leads (by decide), two_nexts (by decide) (by decide),
   next_of_leads (by decide), rfl⟩

/-- True times whose difference is one short of the wrap, and the wrap itself. -/
theorem witness_WrapSafeElapsedTime :
    busy.Inv ∧ 4294967296 ≤ 8589934591 ∧ 8589934591 - 4294967296 < 2 ^ busy.cfg.wUs ∧
    ¬ 8589934592 - 4294967296 < 2 ^ busy.cfg.wUs ∧
    ∀ e ∈ [Event.edgeRise .drive 5, .rxPush 0, .tick 4 4], e.wf busy.cfg = true ∧ e.isEdgeOf .steering = false :=
  ⟨busy_inv, by decide, by decide, by decide, by decide⟩

theorem witness_SnapCopiesTheRawWidths : busy.cfg.wf = true := by decide

theorem witness_FilterUpdateInsertsAndAverages :
    busy.cfg.wf = true ∧ 0 < 2 ^ busy.cfg.wUs ∧ 4294967295 < 2 ^ busy.cfg.wUs := by decide

theorem witness_FilterIsTheMeanOfTheLastFive :
    auto.cfg.wf = true ∧ [(0, 4294967295), (1501, 1504)] ≠ [] ∧
    auto.ringSteer = Vector.replicate 5 auto.cfg.neutralUs ∧
    auto.ringDrive = Vector.replicate 5 auto.cfg.neutralUs ∧
    ∀ v ∈ [(0, 4294967295), (1501, 1504)], v.1 < 2 ^ auto.cfg.wUs ∧ v.2 < 2 ^ auto.cfg.wUs := by decide

theorem witness_FilterIsBoundedAndConverges :
    (∃ t, exec (.filtUpdate 1000 2000) State.reset = .next t ∧
      decide (t.scratch.filt = some ⟨1400, 1600⟩ ∧
        (∀ j : Fin 5, 1000 ≤ t.ringSteer[j] ∧ t.ringSteer[j] ≤ 1500) ∧
        (∀ j : Fin 5, 1500 ≤ t.ringDrive[j] ∧ t.ringDrive[j] ≤ 2000)) = true) ∧
    busy.cfg.wf = true ∧ 0 < 2 ^ busy.cfg.wUs ∧ 4294967295 < 2 ^ busy.cfg.wUs :=
  ⟨next_of_leads (by decide), by decide, by decide, by decide⟩

theorem witness_RunningSumGivesTheSameMean :
    busy.Inv ∧ (∃ t, exec (.filtUpdate 4294967295 0) busy = .next t ∧ decide (t.idx = 4) = true) ∧
    4294971196 = busy.ringSteer.toList.sum ∧ 7500 = busy.ringDrive.toList.sum :=
  ⟨busy_inv, next_of_leads (by decide), by decide, by decide⟩

/-- A crossing in either mode, none, and an executed tick beside its MODE.XING. -/
theorem witness_ModeCrossingToggles :
    (State.reset.cfg.wf = true ∧ 1501 < 2 ^ State.reset.cfg.wUs ∧
      crossing State.reset.cfg State.reset.prevSel 1501 = true ∧ State.reset.mode = .manual) ∧
    (crossing auto.cfg auto.prevSel 4294967295 = true ∧ auto.mode = .autonomous) ∧
    crossing State.reset.cfg State.reset.prevSel 1500 = false ∧
    (gateOpen auto.cfg auto.lastTickMs 10 = true ∧ auto.rxq = [] ∧
      ∃ t u, exec (.tick 10 10) auto = .next t ∧
        exec (.modeXing (auto.ch .modeSelect).raw) auto = .next u ∧
        decide (t.prevSel = 1500) = true ∧ decide (u.prevSel = 1500) = true) :=
  ⟨by decide, by decide, by decide, by decide, rfl, two_nexts (by decide) (by decide)⟩

theorem witness_ForceCommandsEnterOnce :
    (State.reset.cfg.wf = true ∧ State.reset.mode = .manual) ∧ auto.cfg.wf = true ∧ auto.mode = .autonomous := by
  decide

theorem witness_NotificationsFollowModeChanges :
    auto.cfg.wf = true ∧ Instr.cmdDrain.format ≠ .sts ∧
    ∃ t, exec .cmdDrain { auto with rxq := [0x4D, 0x41] } = .next t ∧ decide (t.tx = [0x4D, 0x41]) = true :=
  ⟨by decide, by decide, next_of_leads (by decide)⟩

theorem witness_TogglesCountSideChanges :
    State.reset.cfg.wf = true ∧ ∀ v ∈ [1600, 1400, 4294967295], v < 2 ^ State.reset.cfg.wUs := by decide

theorem witness_AbsentModeSignalStaysManual :
    Cfg.default.wf = true ∧
    (∀ e ∈ [Event.edgeRise .drive 5, .rxPush 0x46, .tick 10 10], e.isEdgeOf .modeSelect = false) ∧
    Cfg.default.cmdForceAuto ∉ pushedBytes [Event.edgeRise .drive 5, .rxPush 0x46, .tick 10 10] ∧
    ∃ t, runEvents [.edgeRise .drive 5, .rxPush 0x46, .tick 10 10] (State.resetWith Cfg.default) = .next t ∧
      decide (t.records.length = 1) = true :=
  ⟨by decide, by decide, by decide, next_of_leads (by decide)⟩

/-- Reset values on the low side with a first capture just above the threshold, and on the high side with one at it. -/
theorem witness_StartupToggleEntersAutonomous :
    (Cfg.default.wf = true ∧ Cfg.default.prevResetUs ≤ Cfg.default.modeThreshUs ∧ Cfg.default.modeThreshUs < 1501) ∧
    (let high := { Cfg.default with rawResetUs := 1501, prevResetUs := 1600 }
     high.wf = true ∧ high.modeThreshUs < high.prevResetUs ∧ 1500 ≤ high.modeThreshUs) ∧
    4294967295 < 2 ^ Cfg.default.wUs ∧ 1501 < 2 ^ Cfg.default.wUs ∧
    10 < 2 ^ Cfg.default.wMs ∧ 0 < 2 ^ Cfg.default.wMs ∧ Cfg.default.tickMs ≤ 10 := by decide

theorem witness_SteeringCommandsAreGated :
    State.reset.cfg.wf = true ∧ State.reset.mode = .manual ∧ auto.cfg.wf = true ∧ auto.mode = .autonomous := by
  decide

theorem witness_DriveCommandsAreGated :
    State.reset.cfg.wf = true ∧ State.reset.mode = .manual ∧ auto.cfg.wf = true ∧ auto.mode = .autonomous := by
  decide

theorem witness_QueueIsFirstInFirstOut :
    busy.cfg.wf = true ∧
    ((∀ e ∈ [Event.rxPush 0x41, .edgeRise .drive 5, .rxPush 0], e.isTick = false) ∧
      ∃ t, runEvents [.rxPush 0x41, .edgeRise .drive 5, .rxPush 0] busy = .next t ∧
        decide (t.rxq = [0x46, 0x41, 0]) = true) ∧
    (gateOpen busy.cfg busy.lastTickMs 4 = true ∧
      ∃ t, exec (.tick 4 4) busy = .next t ∧ decide (t.driveSym = .forward) = true) :=
  ⟨by decide, ⟨by decide, next_of_leads (by decide)⟩, by decide, next_of_leads (by decide)⟩

theorem witness_UnrecognisedBytesChangeNothing : auto.cfg.wf = true ∧ (0x61 : Byte) ∉ auto.cfg.cmdBytes := by
  decide

theorem witness_DrainRunsEveryByteInOrder : { auto with rxq := [0x4D, 0x46] }.cfg.wf = true := by decide

/-- A gated byte met in Manual, a steering and a drive byte met in Autonomous, and both force bytes. -/
theorem witness_GatingFollowsTheModeAtEachByte :
    (∃ u, exec .cmdDrain { auto with rxq := [0x4D] } = .next u ∧ decide (u.mode = .manual) = true) ∧
    (∃ u, exec .cmdDrain { State.reset with rxq := [0x41] } = .next u ∧ decide (u.mode = .autonomous) = true) ∧
    { auto with rxq := [0x4D, 0x46, 0x41] }.rxq = [0x4D] ++ 0x46 :: [0x41] ∧
    driveOf (decodeCmd auto.cfg 0x46) = some .forward ∧ steerOf (decodeCmd auto.cfg 0x52) = some .hardRight ∧
    decodeCmd auto.cfg 0x41 = .cmdForceAuto ∧ decodeCmd auto.cfg 0x4D = .cmdForceManual :=
  ⟨next_of_leads (by decide), next_of_leads (by decide), rfl, by decide, by decide, by decide, by decide⟩

theorem witness_IntentChangesOnlyByItsCommands :
    (∃ t, exec .cmdStraight auto = .next t ∧ decide (t.steerSym ≠ auto.steerSym) = true) ∧
    (∃ t, exec (.tick 10 10) { auto with rxq := [0x52, 0x46] } = .next t ∧
      decide (t.steerSym ≠ auto.steerSym ∧ t.driveSym ≠ auto.driveSym) = true) :=
  ⟨next_of_leads (by decide), next_of_leads (by decide)⟩

theorem witness_LastCommandOfADrainWins :
    { auto with rxq := [0x46, 0x41, 0x53, 0x4E] }.cfg.wf = true ∧
    { auto with rxq := [0x46, 0x41, 0x53, 0x4E] }.mode = .autonomous ∧
    Cfg.default.cmdForceManual ∉ { auto with rxq := [0x46, 0x41, 0x53, 0x4E] }.rxq := by decide

theorem witness_TraceLinesStandForTheirEvents :
    busy.cfg.wf = true ∧ (TraceLine.pulse .drive 4294967295 4294967295).wf busy.cfg = true := by decide

theorem witness_OutputMapRoutesByMode :
    (State.reset.cfg.wf = true ∧ State.reset.mode = .manual) ∧ (auto.cfg.wf = true ∧ auto.mode = .autonomous) ∧
    0 < 2 ^ auto.cfg.wUs ∧ 4294967295 < 2 ^ auto.cfg.wUs ∧ 4294967295 < 2 ^ auto.cfg.wMs := by decide

theorem witness_ManualSteeringIsAffineAndMonotone : Cfg.default.wf = true ∧ 909 ≤ 910 := by decide

/-- The boundary values of the three ranges. -/
theorem witness_ManualDriveIsTriState :
    Cfg.default.wf = true ∧ Cfg.default.driveFwdThreshUs < 1601 ∧ 1449 < Cfg.default.driveRevThreshUs ∧
    (Cfg.default.driveRevThreshUs ≤ 1450 ∧ 1450 ≤ Cfg.default.driveFwdThreshUs) ∧
    (Cfg.default.driveRevThreshUs ≤ 1600 ∧ 1600 ≤ Cfg.default.driveFwdThreshUs) := by decide

/-- Brake, left at 69, right at 111, and neither at 70 and 110. -/
theorem witness_BrakeOverTurnOverIdle :
    Cfg.default.wf = true ∧ brake .dReverse = true ∧
    (brake .dForward = false ∧ turnLeft Cfg.default 69 = true) ∧
    (brake .dNeutral = false ∧ turnRight Cfg.default 111 = true) ∧
    (turnLeft Cfg.default 70 = false ∧ turnRight Cfg.default 70 = false) ∧
    (turnLeft Cfg.default 110 = false ∧ turnRight Cfg.default 110 = false) := by decide

/-- Two different states in each mode, and phases a period apart (V-OUT-9). -/
theorem witness_OutputMapIsPure :
    50 % Cfg.default.blinkPeriodMs = 4050 % Cfg.default.blinkPeriodMs ∧
    (State.reset.cfg = { State.reset with steerSym := .softLeft }.cfg ∧
      State.reset.mode = { State.reset with steerSym := .softLeft }.mode ∧ State.reset.mode = .manual) ∧
    (auto.cfg = { auto with idx := 4 }.cfg ∧ auto.mode = { auto with idx := 4 }.mode ∧ auto.mode = .autonomous ∧
      auto.steerSym = { auto with idx := 4 }.steerSym ∧ auto.driveSym = { auto with idx := 4 }.driveSym) := by
  decide

theorem witness_OutputsAreAlwaysInRange :
    State.reset.cfg.wf = true ∧ (State.reset.outMap 900 1449 300).ledL = true ∧
    (State.reset.outMap 900 1449 300).ledR = true ∧ (auto.outMap 0 0 300).ledL = true ∧
    (auto.outMap 0 0 300).ledR = true := by decide

theorem witness_OutEmitWritesAllPorts : State.reset.cfg.wf = true ∧ 255 < 2 ^ 8 ∧ 65535 < 2 ^ 16 := by decide

theorem witness_EveryExecutedTickWritesOnce :
    gateOpen busy.cfg busy.lastTickMs 4 = true ∧
    ∃ t, exec (.tick 4 4) busy = .next t ∧ decide (t.records.length = 2) = true :=
  ⟨by decide, next_of_leads (by decide)⟩

theorem witness_AutonomousIgnoresTheAnalogChannels :
    ∃ t t', exec (.tick 10 50) auto = .next t ∧
      exec (.tick 10 50) { auto with
        chans := { auto.chans with steering := ⟨900, 0, false, false⟩, drive := ⟨1900, 4, true, true⟩ }
        ringSteer := #v[1, 2, 3, 4, 5], ringDrive := #v[9, 9, 9, 9, 9], idx := 2 } = .next t' ∧
      decide (t.mode = .autonomous) = true ∧ decide (t'.mode = .autonomous) = true :=
  two_nexts (by decide) (by decide)

/-- Nine milliseconds and ten, across the wrap (V-GATE-4, V-GATE-5). -/
theorem witness_TickRunsThePhasesInOrder :
    busy.Inv ∧ (3 < 2 ^ busy.cfg.wMs ∧
      (3 + 2 ^ busy.cfg.wMs - busy.lastTickMs) % 2 ^ busy.cfg.wMs < busy.cfg.tickMs) ∧
    (4 < 2 ^ busy.cfg.wMs ∧
      busy.cfg.tickMs ≤ (4 + 2 ^ busy.cfg.wMs - busy.lastTickMs) % 2 ^ busy.cfg.wMs) :=
  ⟨busy_inv, by decide, by decide⟩

theorem witness_GateCountsFromTheLastTick :
    busy.cfg.wf = true ∧ busy.lastTickMs = 4294967290 % 2 ^ busy.cfg.wMs ∧
    (4294967290 ≤ 4294967299 ∧ 4294967299 - 4294967290 < busy.cfg.tickMs) ∧
    (4294967290 ≤ 4294967300 ∧ busy.cfg.tickMs ≤ 4294967300 - 4294967290 ∧
      4294967300 - 4294967290 < 2 ^ busy.cfg.wMs) ∧ 0 < 2 ^ busy.cfg.wMs := by decide

theorem witness_NoOutputBeforeTheFirstTick :
    Cfg.default.wf = true ∧
    (∀ m p, Event.tick m p ∈ [Event.tick 9 9, .rxPush 0x41] → m < Cfg.default.tickMs) ∧
    ∃ t, runEvents [.tick 9 9, .rxPush 0x41] (State.resetWith Cfg.default) = .next t ∧
      decide (t.rxq = [0x41]) = true :=
  ⟨by decide, by intro m p h; simp at h; obtain ⟨rfl, -⟩ := h; decide, next_of_leads (by decide)⟩

theorem witness_AtRestTheBlockIsQuiet :
    (∀ e ∈ [Event.tick 10 10, .tick 15 15, .tick 20 0], e.isTick = true) ∧
    ∃ t, runEvents [.tick 10 10, .tick 15 15, .tick 20 0] State.reset = .next t ∧
      decide (t.records.length = 2) = true :=
  ⟨by decide, next_of_leads (by decide)⟩

theorem witness_CommandHasTheLastWord :
    let s := { State.reset.setCh .modeSelect ⟨1600, 0, false, false⟩ with rxq := [0x4D] }
    s.cfg.wf = true ∧ 10 < 2 ^ s.cfg.wMs ∧ gateOpen s.cfg s.lastTickMs 10 = true ∧ s.mode = .manual ∧
      crossing s.cfg s.prevSel (s.ch .modeSelect).raw = true ∧ s.rxq = [s.cfg.cmdForceManual] := by decide

theorem witness_ReentryResumesTheLastIntent :
    (let s := { State.reset with rxq := [0x41], steerSym := .softLeft, driveSym := .backward }
     s.cfg.wf = true ∧ 10 < 2 ^ s.cfg.wMs ∧ gateOpen s.cfg s.lastTickMs 10 = true ∧ s.mode = .manual ∧
       crossing s.cfg s.prevSel (s.ch .modeSelect).raw = false ∧ s.rxq = [s.cfg.cmdForceAuto]) ∧
    (let s := { State.reset.setCh .modeSelect ⟨1501, 0, false, false⟩ with steerSym := .softLeft }
     s.cfg.wf = true ∧ gateOpen s.cfg s.lastTickMs 10 = true ∧ s.mode = .manual ∧
       crossing s.cfg s.prevSel (s.ch .modeSelect).raw = true ∧ s.rxq = []) := by decide

/-- Either side of a low angle, and a turn of a well-formed configuration at the first angle beyond the dead-band. -/
theorem witness_BrakeIsReverseAndTurnIsBeyondTheDeadband :
    Cfg.default.leftIsLowAngle = true ∧ { Cfg.default with leftIsLowAngle := false }.leftIsLowAngle = false ∧
    Cfg.default.wf = true ∧ turnLeft Cfg.default 69 = true := by decide

/-- The largest values of the ports, and a good state that has written them under a configuration that fits. -/
theorem witness_PortsHoldWhatFitsThem :
    255 < 2 ^ 8 ∧ 65535 < 2 ^ 16 ∧ busy.Inv ∧ FitsPorts busy.cfg ∧
    (⟨65, 1400, true, true⟩ : OutRecord) ∈ busy.records ∧ busy.outAngle = some 65 ∧ busy.outDriveUs = some 1400 :=
  ⟨by decide, by decide, busy_inv, by decide, by decide, rfl, rfl⟩

end Sys2Proof.Machine.Tests
end

section
/-! PROOFS. The two edge operations of a capture unit (40_pulse_capture.md R66, R67): what each makes of the entry of its
channel, that it is admitted at the boundary, and that it leaves everything else (R69). -/

namespace Sys2Proof.Machine

/-! ## The elapsed time -/

/-- R6: the wrapping difference recovers what was added to its base before the wrap, as long as that is below the wrap. -/
theorem wrapSub_add_mod {w a d : Nat} (ha : a < 2 ^ w) (hd : d < 2 ^ w) :
    wrapSub w ((a + d) % 2 ^ w) a = d := by
  have h := wrapSub_mod_mod (w := w) (Nat.le_add_right a d)
  rwa [Nat.mod_eq_of_lt ha, Nat.add_sub_cancel_left, Nat.mod_eq_of_lt hd] at h

/-! ## The entry of the channel -/

theorem Channel.rise_eq (e : Channel) (now : Nat) :
    e.rise now = { raw := e.raw, start := now, armed := true, level := true } := rfl

theorem Channel.fall_of_armed {e : Channel} (w now : Nat) (h : e.armed = true) :
    e.fall w now = { raw := wrapSub w now e.start, start := e.start, armed := false, level := false } := by
  rw [Channel.fall, if_pos h]

theorem Channel.fall_of_not_armed {e : Channel} (w now : Nat) (h : e.armed = false) :
    e.fall w now = { raw := e.raw, start := e.start, armed := false, level := false } := by
  rw [Channel.fall, if_neg (Bool.eq_false_iff.1 h), h]

/-! ## The operations -/

/-- Writing one entry of the channel register file leaves every field but the file. -/
theorem State.setCh_frame (s : State) (c : Chan) (e : Channel) :
    s.setCh c e = { s with chans := (s.setCh c e).chans } := rfl

theorem exec_edgeRise {c : Chan} {now : Nat} {s : State} (hcfg : s.cfg.wf = true) (hnow : now < 2 ^ s.cfg.wUs) :
    exec (.edgeRise c now) s = .next (s.setCh c ((s.ch c).rise now)) :=
  exec_eq_next.2 ⟨hcfg, decide_eq_true hnow, rfl⟩

theorem exec_edgeFall {c : Chan} {now : Nat} {s : State} (hcfg : s.cfg.wf = true) (hnow : now < 2 ^ s.cfg.wUs) :
    exec (.edgeFall c now) s = .next (s.setCh c ((s.ch c).fall s.cfg.wUs now)) :=
  exec_eq_next.2 ⟨hcfg, decide_eq_true hnow, rfl⟩

/-- Settles O17: the step is one write of the channel's entry, so the frame is that of the register file. -/
theorem edgeRiseArmsItsChannel : Obligations.EdgeRiseArmsItsChannel := by
  intro c now s hcfg hnow
  refine ⟨_, exec_edgeRise hcfg hnow, ?entry, fun d hd => State.ch_setCh_ne s _ hd, State.setCh_frame s c _⟩
  case entry => rw [State.ch_setCh_self, Channel.rise_eq]

/-- Settles O18: the step is one write of the channel's entry; armed and unarmed entries are told apart there, and the wrap
is undone by `wrapSub_add_mod`. -/
theorem edgeFallPublishesElapsedTime : Obligations.EdgeFallPublishesElapsedTime := by
  intro c now s hcfg hnow
  refine ⟨_, exec_edgeFall hcfg hnow, ?armed, ?elapsed, ?unarmed,
    fun d hd => State.ch_setCh_ne s _ hd, State.setCh_frame s c _⟩
  case armed =>
    intro harmed
    rw [State.ch_setCh_self, Channel.fall_of_armed _ _ harmed, wrapSub]
  case elapsed =>
    intro harmed d hd hstart helapsed
    rw [State.ch_setCh_self, Channel.fall_of_armed _ _ harmed, helapsed]
    exact wrapSub_add_mod hstart hd
  case unarmed =>
    intro hunarmed
    rw [State.ch_setCh_self, Channel.fall_of_not_armed _ _ hunarmed]

end Sys2Proof.Machine
end

section
/-! PROOFS. The mode controller (42_mode_controller.md R86 to R89): the crossing predicate as a change of side, the crossing
phase alone and within a tick, and the two force commands. -/

namespace Sys2Proof.Machine

/-! ## The crossing predicate -/

/-- R86: the predicate compares the sides of its two values. -/
theorem crossing_eq_bne_side (cfg : Cfg) (p q : Nat) :
    crossing cfg p q = (decide (cfg.modeThreshUs < p) != decide (cfg.modeThreshUs < q)) := by
  have low (v : Nat) : decide (v ≤ cfg.modeThreshUs) = !decide (cfg.modeThreshUs < v) := by
    simp only [← decide_not, not_lt]
  rw [crossing, low p, low q]
  cases decide (cfg.modeThreshUs < p) <;> cases decide (cfg.modeThreshUs < q) <;> rfl

theorem crossing_eq_true_iff (cfg : Cfg) (p q : Nat) :
    crossing cfg p q = true ↔
      (p ≤ cfg.modeThreshUs ∧ cfg.modeThreshUs < q) ∨ (cfg.modeThreshUs < p ∧ q ≤ cfg.modeThreshUs) := by
  simp only [crossing, Bool.or_eq_true, Bool.and_eq_true, decide_eq_true_eq]

theorem crossing_comm (cfg : Cfg) (p q : Nat) : crossing cfg p q = crossing cfg q p := by
  rw [crossing_eq_bne_side, crossing_eq_bne_side, bne_comm]

/-- Settles O28: symmetry and the reading as a change of side both come from the comparison of sides; the examples are
evaluated. -/
theorem crossingIsAChangeOfSide : Obligations.CrossingIsAChangeOfSide := by
  refine ⟨fun cfg p q => ⟨crossing_eq_true_iff cfg p q, crossing_comm cfg p q, ?side⟩, ?examples⟩
  case side => rw [crossing_eq_bne_side, bne_iff_ne]
  case examples => decide

/-! ## The crossing phase -/

theorem exec_modeXing {v : Nat} {s : State} (hcfg : s.cfg.wf = true) (hv : v < 2 ^ s.cfg.wUs) :
    exec (.modeXing v) s = .next (s.xing v) :=
  exec_eq_next.2 ⟨hcfg, decide_eq_true hv, rfl⟩

theorem xing_of_crossing {s : State} {v : Nat} (h : crossing s.cfg s.prevSel v = true) :
    s.xing v = { s with
      mode := otherMode s.mode, tx := s.tx ++ [notifyByte s.cfg (otherMode s.mode)], prevSel := v } := by
  rw [State.xing, h]
  rfl

theorem xing_of_not_crossing {s : State} {v : Nat} (h : crossing s.cfg s.prevSel v = false) :
    s.xing v = { s with prevSel := v } := by
  rw [State.xing, h]
  rfl

/-- The phase reads `mode`, `prev_sel`, `tx` and the configuration only: states that agree on these leave it with the same
mode, status bytes and `prev_sel`. -/
theorem xing_congr {s b : State} (v : Nat) (hcfg : b.cfg = s.cfg) (hprev : b.prevSel = s.prevSel)
    (hmode : b.mode = s.mode) (htx : b.tx = s.tx) :
    (b.xing v).mode = (s.xing v).mode ∧ (b.xing v).tx = (s.xing v).tx ∧
      (b.xing v).prevSel = (s.xing v).prevSel := by
  have hsame : crossing b.cfg b.prevSel v = crossing s.cfg s.prevSel v := by rw [hcfg, hprev]
  cases h : crossing s.cfg s.prevSel v
  case false => simp only [xing_of_not_crossing h, xing_of_not_crossing (hsame.trans h), hmode, htx, and_self]
  case true => simp only [xing_of_crossing h, xing_of_crossing (hsame.trans h), hcfg, hmode, htx, and_self]

/-! ## The crossing phase within a tick -/

theorem drain_of_rxq_nil {s : State} (h : s.rxq = []) : s.drain = s := by
  rw [drain_eq_foldl, h, List.foldl_nil, ← h]

theorem xing_rxq (s : State) (v : Nat) : (s.xing v).rxq = s.rxq := by
  rcases xing_cases s v with ⟨_, h⟩ | ⟨_, h⟩ <;> rw [h]

/-- Without queued bytes, the crossing phase alone decides what a tick makes of the mode, `tx` and `prev_sel`: the gate and
the ring update before it write none of what it reads, and the phases after it write none of the three. -/
theorem runTick_mode_of_rxq_nil {s : State} (m p : Nat) (h : s.rxq = []) :
    (s.runTick m p).mode = (s.xing (s.ch .modeSelect).raw).mode ∧
    (s.runTick m p).tx = (s.xing (s.ch .modeSelect).raw).tx ∧
    (s.runTick m p).prevSel = (s.xing (s.ch .modeSelect).raw).prevSel := by
  have hdrain : (((s.setLastTick m).filtWrite (s.ch .steering).raw (s.ch .drive).raw).xing
      (s.ch .modeSelect).raw).rxq = [] := (xing_rxq _ _).trans h
  simp only [runTick_eq, drain_of_rxq_nil hdrain, State.setScratch_mode, State.setScratch_tx,
    State.setScratch_prevSel, State.emitRecord_mode, State.emitRecord_tx, State.emitRecord_prevSel]
  exact xing_congr _ rfl rfl rfl rfl

/-- Settles O29: the phase alone is its two branches at each mode, and a tick past its gate with nothing queued is that phase
on the raw mode-select width. -/
theorem modeCrossingToggles : Obligations.ModeCrossingToggles := by
  refine ⟨fun v s hcfg hv => ⟨?toAuto, ?toManual, ?none⟩, ?tick⟩
  case toAuto | toManual =>
    rintro ⟨hx, hmode⟩
    rw [exec_modeXing hcfg hv, xing_of_crossing hx, hmode, otherMode, notifyByte]
  case none =>
    intro hx
    rw [exec_modeXing hcfg hv, xing_of_not_crossing hx]
  case tick =>
    intro now phase s t u hgate hrxq htick hxing
    obtain ⟨_, _, rfl⟩ := exec_eq_next.1 htick
    obtain ⟨_, _, rfl⟩ := exec_eq_next.1 hxing
    simp only [effectOf, hgate, if_true]
    exact runTick_mode_of_rxq_nil now phase hrxq

/-! ## The force commands -/

theorem decodeCmd_cmdForceAuto (cfg : Cfg) : decodeCmd cfg cfg.cmdForceAuto = .cmdForceAuto := if_pos rfl

/-- The two force bytes of a well-formed configuration differ (R5 (g)), so the decoder's first test passes this one on. -/
theorem decodeCmd_cmdForceManual {cfg : Cfg} (h : cfg.wf = true) :
    decodeCmd cfg cfg.cmdForceManual = .cmdForceManual := by
  obtain ⟨hnodup, _⟩ := Cfg.wf_bytes_distinct h
  have hne : cfg.cmdForceManual ≠ cfg.cmdForceAuto := fun he =>
    (List.nodup_cons.1 hnodup).1 (he ▸ List.mem_cons_self)
  rw [decodeCmd, if_neg hne, if_pos rfl]

theorem exec_cmdForceAuto {s : State} (hcfg : s.cfg.wf = true) :
    exec .cmdForceAuto s = .next (s.forceMode .autonomous) :=
  exec_eq_next.2 ⟨hcfg, rfl, rfl⟩

theorem exec_cmdForceManual {s : State} (hcfg : s.cfg.wf = true) :
    exec .cmdForceManual s = .next (s.forceMode .manual) :=
  exec_eq_next.2 ⟨hcfg, rfl, rfl⟩

theorem forceMode_of_mode_eq {s : State} {m : Mode} (h : s.mode = m) : s.forceMode m = s := if_pos h

theorem forceMode_of_mode_ne {s : State} {m : Mode} (h : s.mode ≠ m) :
    s.forceMode m = { s with mode := m, tx := s.tx ++ [notifyByte s.cfg m] } := if_neg h

/-- Settles O30: each command is its decoded byte, and it enters its mode or does nothing by `forceMode`'s two branches. -/
theorem forceCommandsEnterOnce : Obligations.ForceCommandsEnterOnce := by
  intro s hcfg
  refine ⟨decodeCmd_cmdForceAuto _, ?enterAuto, ?stayAuto, decodeCmd_cmdForceManual hcfg, ?enterManual, ?stayManual⟩
  case enterAuto =>
    intro hmode
    rw [exec_cmdForceAuto hcfg, forceMode_of_mode_ne (by simp [hmode]), notifyByte]
  case stayAuto =>
    intro hmode
    rw [exec_cmdForceAuto hcfg, forceMode_of_mode_eq hmode]
  case enterManual =>
    intro hmode
    rw [exec_cmdForceManual hcfg, forceMode_of_mode_ne (by simp [hmode]), notifyByte]
  case stayManual =>
    intro hmode
    rw [exec_cmdForceManual hcfg, forceMode_of_mode_eq hmode]

end Sys2Proof.Machine
end

section
/-! PROOFS. The command interpreter (43_command_interpreter.md R97 to R109): what a decoded byte is and does, the gate of the
steering and drive commands, and the drain as a run of the decoded bytes. -/

namespace Sys2Proof.Machine

/-! ## Decoding a command byte -/

theorem decodeCmd_format (cfg : Cfg) (b : Byte) : (decodeCmd cfg b).format = .cmd := by
  unfold decodeCmd
  split_ifs <;> rfl

/-- R48: the byte of a command row decodes to that row; the ten tests come in order, and the byte passes those before its own
because the ten bytes are distinct (R5 (g)). -/
theorem decodeCmd_of_encode {cfg : Cfg} {i : Instr} {b : Byte} (hcfg : cfg.wf = true) (hformat : i.format = .cmd)
    (hi : i.wf cfg = true) (hb : encode cfg i = [b]) : decodeCmd cfg b = i := by
  obtain ⟨hdistinct, _⟩ := Cfg.wf_bytes_distinct hcfg
  have hlater : cfg.cmdBytes.Pairwise fun earlier later => later ≠ earlier := hdistinct.imp Ne.symm
  simp only [Cfg.cmdBytes, List.pairwise_cons, List.forall_mem_cons, ne_eq] at hlater
  cases i
  case cmdIgnored c =>
    obtain rfl : c = b := (List.cons.inj hb).1
    have hnone : c ∉ cfg.cmdBytes := of_decide_eq_true hi
    simp only [Cfg.cmdBytes, List.mem_cons, List.not_mem_nil, not_or, or_false] at hnone
    simp only [decodeCmd, hnone, if_false]
  case cmdForceAuto | cmdForceManual | cmdStraight | cmdSoftLeft | cmdSoftRight | cmdHardLeft | cmdHardRight
      | cmdForward | cmdBackward | cmdNeutral =>
    obtain rfl := (List.cons.inj hb).1
    simp only [decodeCmd, hlater, if_false, if_true]
  all_goals exact nomatch hformat

/-- R98: an admitted command row does what the dispatch of its byte does. -/
theorem exec_of_format_cmd {i : Instr} {s : State} (hcfg : s.cfg.wf = true) (hformat : i.format = .cmd) :
    exec i s = .next (s.runCommand i) := by
  refine exec_eq_next.2 ⟨hcfg, ?_⟩
  cases i
  case cmdForceAuto | cmdForceManual | cmdStraight | cmdSoftLeft | cmdSoftRight | cmdHardLeft | cmdHardRight
      | cmdForward | cmdBackward | cmdNeutral | cmdIgnored => exact ⟨rfl, rfl⟩
  all_goals exact nomatch hformat

theorem exec_decodeCmd {s : State} (b : Byte) (hcfg : s.cfg.wf = true) :
    exec (decodeCmd s.cfg b) s = .next (s.command b) :=
  exec_of_format_cmd hcfg (decodeCmd_format _ b)

/-- Settles O38: an ignored row is well formed exactly for a byte that is none of the ten, and its effect is the state
itself. -/
theorem unrecognisedBytesChangeNothing : Obligations.UnrecognisedBytesChangeNothing := fun _ _ hcfg =>
  ⟨fun hnone => decodeCmd_of_encode hcfg rfl (decide_eq_true hnone) rfl, exec_of_format_cmd hcfg rfl⟩

/-! ## The gate of the steering and drive commands -/

theorem steerCommand_of_autonomous {s : State} (y : SteerSym) (h : s.mode = .autonomous) :
    s.steerCommand y = { s with steerSym := y } := if_pos h

theorem steerCommand_of_manual {s : State} (y : SteerSym) (h : s.mode = .manual) : s.steerCommand y = s :=
  if_neg (by simp [h])

theorem driveCommand_of_autonomous {s : State} (y : DriveSym) (h : s.mode = .autonomous) :
    s.driveCommand y = { s with driveSym := y } := if_pos h

theorem driveCommand_of_manual {s : State} (y : DriveSym) (h : s.mode = .manual) : s.driveCommand y = s :=
  if_neg (by simp [h])

/-- R99 to R103: the rows that carry a steering symbol are the steering commands. -/
theorem runCommand_of_steerOf {i : Instr} {y : SteerSym} (s : State) (h : steerOf i = some y) :
    s.runCommand i = s.steerCommand y := by
  cases i
  case cmdStraight | cmdSoftLeft | cmdSoftRight | cmdHardLeft | cmdHardRight =>
    obtain rfl := Option.some.inj h
    rfl
  all_goals exact nomatch h

/-- R104 to R106: the rows that carry a drive symbol are the drive commands. -/
theorem runCommand_of_driveOf {i : Instr} {y : DriveSym} (s : State) (h : driveOf i = some y) :
    s.runCommand i = s.driveCommand y := by
  cases i
  case cmdForward | cmdBackward | cmdNeutral =>
    obtain rfl := Option.some.inj h
    rfl
  all_goals exact nomatch h

/-- R109: a command row that carries a symbol does nothing in Manual. -/
theorem runCommand_of_manual {i : Instr} {s : State} (hsym : (steerOf i).isSome ∨ (driveOf i).isSome)
    (h : s.mode = .manual) : s.runCommand i = s := by
  rcases hsym with hsteer | hdrive
  · obtain ⟨y, hy⟩ := Option.isSome_iff_exists.1 hsteer
    rw [runCommand_of_steerOf s hy, steerCommand_of_manual y h]
  · obtain ⟨y, hy⟩ := Option.isSome_iff_exists.1 hdrive
    rw [runCommand_of_driveOf s hy, driveCommand_of_manual y h]

theorem runCommand_of_steerOf_autonomous {i : Instr} {y : SteerSym} {s : State} (hy : steerOf i = some y)
    (h : s.mode = .autonomous) : s.runCommand i = { s with steerSym := y } := by
  rw [runCommand_of_steerOf s hy, steerCommand_of_autonomous y h]

theorem runCommand_of_driveOf_autonomous {i : Instr} {y : DriveSym} {s : State} (hy : driveOf i = some y)
    (h : s.mode = .autonomous) : s.runCommand i = { s with driveSym := y } := by
  rw [runCommand_of_driveOf s hy, driveCommand_of_autonomous y h]

/-- R109 for an operation run by itself: in Manual a command row that carries a symbol is admitted and does nothing. -/
theorem exec_of_manual {i : Instr} {s : State} (hcfg : s.cfg.wf = true) (hformat : i.format = .cmd)
    (hsym : (steerOf i).isSome ∨ (driveOf i).isSome) (h : s.mode = .manual) : exec i s = .next s := by
  rw [exec_of_format_cmd hcfg hformat, runCommand_of_manual hsym h]

theorem exec_of_steerOf_autonomous {i : Instr} {y : SteerSym} {s : State} (hcfg : s.cfg.wf = true)
    (hformat : i.format = .cmd) (hy : steerOf i = some y) (h : s.mode = .autonomous) :
    exec i s = .next { s with steerSym := y } := by
  rw [exec_of_format_cmd hcfg hformat, runCommand_of_steerOf_autonomous hy h]

theorem exec_of_driveOf_autonomous {i : Instr} {y : DriveSym} {s : State} (hcfg : s.cfg.wf = true)
    (hformat : i.format = .cmd) (hy : driveOf i = some y) (h : s.mode = .autonomous) :
    exec i s = .next { s with driveSym := y } := by
  rw [exec_of_format_cmd hcfg hformat, runCommand_of_driveOf_autonomous hy h]

/-- Settles O35: the rows differ only in the symbol they carry, so one lemma serves each mode and one the five bytes. -/
theorem steeringCommandsAreGated : Obligations.SteeringCommandsAreGated := by
  intro s hcfg
  refine ⟨fun hmode => ?manual, fun hmode => ?autonomous, ?decode⟩
  case manual =>
    refine ⟨?_, ?_, ?_, ?_, ?_⟩ <;> exact exec_of_manual hcfg rfl (.inl rfl) hmode
  case autonomous =>
    refine ⟨?_, ?_, ?_, ?_, ?_⟩ <;> exact exec_of_steerOf_autonomous hcfg rfl rfl hmode
  case decode =>
    refine ⟨?_, ?_, ?_, ?_, ?_⟩ <;> exact decodeCmd_of_encode hcfg rfl rfl rfl

/-- Settles O36: as for the steering commands, over the three drive rows. -/
theorem driveCommandsAreGated : Obligations.DriveCommandsAreGated := by
  intro s hcfg
  refine ⟨fun hmode => ?manual, fun hmode => ?autonomous, ?decode⟩
  case manual =>
    refine ⟨?_, ?_, ?_⟩ <;> exact exec_of_manual hcfg rfl (.inr rfl) hmode
  case autonomous =>
    refine ⟨?_, ?_, ?_⟩ <;> exact exec_of_driveOf_autonomous hcfg rfl rfl hmode
  case decode =>
    refine ⟨?_, ?_, ?_⟩ <;> exact decodeCmd_of_encode hcfg rfl rfl rfl

/-! ## The drain -/

theorem command_cfg (s : State) (b : Byte) : (s.command b).cfg = s.cfg := by rw [command_frame]

theorem command_rxq (s : State) (b : Byte) : (s.command b).rxq = s.rxq := by rw [command_frame]

theorem drain_cfg (s : State) : s.drain.cfg = s.cfg := by rw [drain_frame]

theorem drain_rxq (s : State) : s.drain.rxq = [] := by rw [drain_frame]

theorem exec_cmdDrain {s : State} (hcfg : s.cfg.wf = true) : exec .cmdDrain s = .next s.drain :=
  exec_eq_next.2 ⟨hcfg, rfl, rfl⟩

/-- The operations a list of bytes decodes to run to the end, and leave what dispatching the bytes leaves. -/
theorem runInstrs_decodeCmd {cfg : Cfg} (hcfg : cfg.wf = true) (q : List Byte) {s : State} (hs : s.cfg = cfg) :
    runInstrs (q.map (decodeCmd cfg)) s = .next (q.foldl State.command s) := by
  induction q generalizing s with
  | nil => rfl
  | cons b q ih =>
    subst hs
    simp only [List.map_cons, List.foldl_cons, runInstrs, exec_decodeCmd b hcfg]
    exact ih (command_cfg s b)

/-- Settles O39: the drain is the fold of the dispatch over the queue, and so is the run of the decoded operations. -/
theorem drainRunsEveryByteInOrder : Obligations.DrainRunsEveryByteInOrder := by
  intro s hcfg
  refine ⟨s.drain, exec_cmdDrain hcfg, drain_rxq s, ?_⟩
  rw [drain_eq_foldl]
  exact runInstrs_decodeCmd hcfg s.rxq rfl

/-- A drain can be stopped before any byte: that byte is dispatched to what the bytes before it left, and the rest of the
queue is drained from there. -/
theorem drain_append_cons {s : State} {before after : List Byte} {b : Byte} (h : s.rxq = before ++ b :: after) :
    s.drain = State.drain { State.command (State.drain { s with rxq := before }) b with rxq := after } := by
  have hempty : (State.command (State.drain { s with rxq := before }) b).rxq = [] :=
    (command_rxq _ b).trans (drain_rxq _)
  calc s.drain
    _ = after.foldl State.command (State.command (before.foldl State.command { s with rxq := [] }) b) := by
      rw [drain_eq_foldl, h, List.foldl_append, List.foldl_cons]
    _ = after.foldl State.command (State.command (State.drain { s with rxq := before }) b) := by
      rw [drain_eq_foldl { s with rxq := before }]
    _ = _ := by
      rw [drain_eq_foldl { State.command (State.drain { s with rxq := before }) b with rxq := after }, ← hempty]

theorem forceMode_mode (s : State) (m : Mode) : (s.forceMode m).mode = m := by
  rcases forceMode_cases s m with ⟨hm, h⟩ | ⟨_, h⟩ <;> rw [h]
  exact hm

/-- Settles O40: the state the byte meets is the drain of the bytes before it, and what the byte does there is its row's
effect in the mode of that state. -/
theorem gatingFollowsTheModeAtEachByte : Obligations.GatingFollowsTheModeAtEachByte := by
  intro s u before after b hqueue hbefore
  obtain ⟨hcfg, _, rfl⟩ := exec_eq_next.1 hbefore
  change s.cfg.wf = true at hcfg
  simp only [effectOf]
  generalize hu : State.drain { s with rxq := before } = u
  have hucfg : u.cfg = s.cfg := hu ▸ drain_cfg _
  have hv : u.command b = u.runCommand (decodeCmd s.cfg b) := by rw [State.command, hucfg]
  refine ⟨u.runCommand (decodeCmd s.cfg b), ?runs, ?rest, runCommand_of_manual,
    fun _ => runCommand_of_steerOf_autonomous, fun _ => runCommand_of_driveOf_autonomous, ?forceAuto, ?forceManual⟩
  case runs => exact exec_of_format_cmd (hucfg ▸ hcfg) (decodeCmd_format _ b)
  case rest =>
    have hvcfg : (u.command b).cfg.wf = true := by rw [command_cfg, hucfg, hcfg]
    rw [exec_cmdDrain hcfg, drain_append_cons hqueue, hu, ← hv]
    exact (exec_cmdDrain (s := { u.command b with rxq := after }) hvcfg).symm
  case forceAuto =>
    intro hforce
    rw [hforce]
    exact forceMode_mode u .autonomous
  case forceManual =>
    intro hforce
    rw [hforce]
    exact forceMode_mode u .manual

end Sys2Proof.Machine
end

section
/-! PROOFS. The indicator decision and the write of the outputs (44_output_mapper.md R125 to R127, R131): the precedence of
the lamps' conditions, and the one record of an executed tick. -/

namespace Sys2Proof.Machine

/-! ## The turn conditions -/

theorem lowAngle_eq_true_iff (cfg : Cfg) (angle : Nat) :
    lowAngle cfg angle = true ↔ angle < cfg.steerCenterDeg - cfg.turnDeadbandDeg := decide_eq_true_iff

theorem highAngle_eq_true_iff (cfg : Cfg) (angle : Nat) :
    highAngle cfg angle = true ↔ cfg.steerCenterDeg + cfg.turnDeadbandDeg < angle := decide_eq_true_iff

/-- No angle lies on both sides of the no-turn band. -/
theorem not_lowAngle_and_highAngle (cfg : Cfg) (angle : Nat) :
    ¬ (lowAngle cfg angle = true ∧ highAngle cfg angle = true) := by
  rw [lowAngle_eq_true_iff, highAngle_eq_true_iff]
  omega

/-- R124: the two turns exclude each other, whichever side the configuration calls left. -/
theorem turnLeft_eq_false_of_turnRight {cfg : Cfg} {angle : Nat} (h : turnRight cfg angle = true) :
    turnLeft cfg angle = false := by
  have hexcl := not_lowAngle_and_highAngle cfg angle
  rw [turnRight] at h
  rw [turnLeft, Bool.eq_false_iff]
  cases hside : cfg.leftIsLowAngle <;> simp only [hside, if_true, Bool.false_eq_true, if_false] at h ⊢
  case false => exact fun hhigh => hexcl ⟨h, hhigh⟩
  case true => exact fun hlow => hexcl ⟨hlow, h⟩

/-! ## The indicator decision -/

theorem blinkOn_eq_true_iff (cfg : Cfg) (p : Nat) :
    blinkOn cfg p = true ↔ p % cfg.blinkPeriodMs < cfg.blinkOnMs := decide_eq_true_iff

theorem indicators_of_brake {cfg : Cfg} {angle phase : Nat} {ds : DriveState} (hbrake : brake ds = true) :
    indicators cfg angle ds phase = (true, true) := by
  rw [indicators, if_pos hbrake]

theorem indicators_of_turnLeft {cfg : Cfg} {angle phase : Nat} {ds : DriveState} (hbrake : brake ds = false)
    (hleft : turnLeft cfg angle = true) : indicators cfg angle ds phase = (blinkOn cfg phase, false) := by
  rw [indicators, if_neg (Bool.eq_false_iff.1 hbrake), if_pos hleft]

/-- The right turn stands behind the left one in the decision; it is reached because the two exclude each other. -/
theorem indicators_of_turnRight {cfg : Cfg} {angle phase : Nat} {ds : DriveState} (hbrake : brake ds = false)
    (hright : turnRight cfg angle = true) : indicators cfg angle ds phase = (false, blinkOn cfg phase) := by
  have hleft := turnLeft_eq_false_of_turnRight hright
  rw [indicators, if_neg (Bool.eq_false_iff.1 hbrake), if_neg (Bool.eq_false_iff.1 hleft), if_pos hright]

theorem indicators_of_idle {cfg : Cfg} {angle phase : Nat} {ds : DriveState} (hbrake : brake ds = false)
    (hleft : turnLeft cfg angle = false) (hright : turnRight cfg angle = false) :
    indicators cfg angle ds phase = (false, false) := by
  rw [indicators, if_neg (Bool.eq_false_iff.1 hbrake), if_neg (Bool.eq_false_iff.1 hleft),
    if_neg (Bool.eq_false_iff.1 hright)]

/-- Settles O47: each clause is one branch of the decision, and R125's corner cases are evaluated. -/
theorem brakeOverTurnOverIdle : Obligations.BrakeOverTurnOverIdle := by
  refine ⟨fun cfg angle phase ds _ => ⟨indicators_of_brake, ?left, ?right, indicators_of_idle⟩,
    blinkOn_eq_true_iff, ?corners⟩
  case left => exact indicators_of_turnLeft
  case right => exact indicators_of_turnRight
  case corners => decide

/-! ## The record of an executed tick -/

/-- R130: after a write of the outputs the four ports hold what was written. -/
theorem portsShow_emitRecord (s : State) (r : OutRecord) : (s.emitRecord r).PortsShow (some r) :=
  ⟨rfl, rfl, rfl, rfl⟩

theorem xing_records (s : State) (v : Nat) : (s.xing v).records = s.records := by
  rcases xing_cases s v with ⟨_, h⟩ | ⟨_, h⟩ <;> rw [h]

theorem drain_records (s : State) : s.drain.records = s.records := by rw [drain_frame]

/-- R131: past its gate a tick writes the outputs once, as its last phase; the phases before it write no record. -/
theorem runTick_writes_one_record (s : State) (m p : Nat) :
    ∃ r, (s.runTick m p).records = s.records ++ [r] ∧ (s.runTick m p).PortsShow (some r) := by
  simp only [runTick_eq]
  generalize hb : (s.setLastTick m).filtWrite (s.ch .steering).raw (s.ch .drive).raw = b
  generalize hd : (b.xing (s.ch .modeSelect).raw).drain = d
  have hrecords : d.records = s.records := by
    rw [← hd, drain_records, xing_records, ← hb, filtWrite_frame, State.setLastTick_records]
  refine ⟨(d.outMap b.means.fSteer b.means.fDrive p).toPorts, ?appended, portsShow_emitRecord d _⟩
  case appended => rw [State.setScratch_records, State.emitRecord_records, hrecords]

/-- Settles O51: an admitted tick with an open gate is its phases. -/
theorem everyExecutedTickWritesOnce : Obligations.EveryExecutedTickWritesOnce := by
  intro now phase s t hgate htick
  obtain ⟨_, _, rfl⟩ := exec_eq_next.1 htick
  simp only [effectOf, hgate, if_true]
  exact runTick_writes_one_record s now phase

end Sys2Proof.Machine
end

section
/-! PROOFS. The boundary (60_exceptions.md R145): when an operation is refused and with which reason, read off `exec` as one
boundary check over one effect. -/

namespace Sys2Proof.Machine

/-! ## The outcomes of an operation -/

theorem exec_ne_fault (i : Instr) (s : State) (r : Fault) : exec i s ≠ .fault r := by
  rw [exec_eq_atBoundary]
  exact atBoundary_ne_fault

theorem exec_of_operandsFit {i : Instr} {s : State} (hcfg : s.cfg.wf = true) (hfit : operandsFit s.cfg i = true) :
    exec i s = .next (effectOf s i) :=
  exec_eq_next.2 ⟨hcfg, hfit, rfl⟩

/-- R5: the configuration is tested before the operands, so its refusal does not depend on them. -/
theorem exec_of_illFormed {i : Instr} {s : State} (hcfg : s.cfg.wf = false) :
    exec i s = .refused .illFormedConfig := by
  rw [exec_eq_atBoundary, State.atBoundary, if_neg (Bool.eq_false_iff.1 hcfg)]

/-- Everything a refusal can be: the configuration is ill-formed, or an operand does not fit. -/
theorem exec_eq_refused {i : Instr} {s : State} {r : Refusal} (h : exec i s = .refused r) :
    (r = .illFormedConfig ∧ s.cfg.wf = false) ∨ (r = .operandOutOfWidth ∧ operandsFit s.cfg i = false) := by
  rw [exec_eq_atBoundary] at h
  exact atBoundary_eq_refused h

/-- An operation with an operand that does not fit is no well-formed term. -/
theorem wf_eq_false_of_not_operandsFit {cfg : Cfg} {i : Instr} (h : operandsFit cfg i = false) :
    i.wf cfg = false :=
  Bool.eq_false_iff.2 fun hwf => Bool.eq_false_iff.1 h (operandsFit_of_wf hwf)

/-- Settles O10: each clause is one outcome of the boundary check; a refusal under a well-formed configuration is the check
of the operands. -/
theorem onlyTheBoundaryRefuses : Obligations.OnlyTheBoundaryRefuses := by
  intro i s
  refine ⟨exec_ne_fault i s, ?completes, exec_of_illFormed, ?refuses⟩
  case completes =>
    intro hcfg hwf
    exact ⟨effectOf s i, exec_of_operandsFit hcfg (operandsFit_of_wf hwf)⟩
  case refuses =>
    intro r hrefused hcfg
    obtain ⟨_, hill⟩ | ⟨rfl, hfit⟩ := exec_eq_refused hrefused
    · exact absurd hcfg (Bool.eq_false_iff.1 hill)
    · exact ⟨rfl, wf_eq_false_of_not_operandsFit hfit⟩

end Sys2Proof.Machine
end

section
/-! PROOFS. The encoded formats (30_encoding.md R45 to R53): the decoder and the encoder undo each other on the command rows
and on the status rows, the ignored bytes are counted, and the numeric codes name their members. -/

namespace Sys2Proof.Machine

/-! ## The encoder and the decoders -/

/-- R45: a command row is encoded in one byte. -/
theorem exists_encode_of_format_cmd {i : Instr} (cfg : Cfg) (hformat : i.format = .cmd) :
    ∃ b, encode cfg i = [b] := by
  cases i
  case cmdForceAuto | cmdForceManual | cmdStraight | cmdSoftLeft | cmdSoftRight | cmdHardLeft | cmdHardRight
      | cmdForward | cmdBackward | cmdNeutral | cmdIgnored => exact ⟨_, rfl⟩
  all_goals exact nomatch hformat

theorem decode_encode {cfg : Cfg} {i : Instr} (rest : List Byte) (hcfg : cfg.wf = true) (hi : i.wf cfg = true)
    (hformat : i.format = .cmd) : decode cfg (encode cfg i ++ rest) = .ok (i, rest) := by
  obtain ⟨b, hb⟩ := exists_encode_of_format_cmd cfg hformat
  rw [hb, List.singleton_append, decode, decodeCmd_of_encode hcfg hformat hi hb]

/-- R53: the two status bytes differ (R5 (g)), so the second test of the decoder is reached by its own byte. -/
theorem decodeStatus_encode {cfg : Cfg} {i : Instr} (rest : List Byte) (hcfg : cfg.wf = true)
    (hformat : i.format = .sts) : decodeStatus cfg (encode cfg i ++ rest) = .ok (i, rest) := by
  obtain ⟨_, hstatus⟩ := Cfg.wf_bytes_distinct hcfg
  cases i
  case notifyAuto => exact if_pos rfl
  case notifyManual => exact (if_neg hstatus.symm).trans (if_pos rfl)
  all_goals exact nomatch hformat

theorem encode_of_format_phase {i : Instr} (cfg : Cfg) (hformat : i.format = .phase) : encode cfg i = [] := by
  cases i
  case snap | filtUpdate | modeXing | cmdDrain | outMap | outEmit => rfl
  all_goals exact nomatch hformat

/-- Settles O1: one lemma for each format; the command rows go through the byte they are encoded in. -/
theorem decodeInvertsEncode : Obligations.DecodeInvertsEncode := fun cfg _ rest hcfg hi =>
  ⟨decode_encode rest hcfg hi, decodeStatus_encode rest hcfg, encode_of_format_phase cfg⟩

/-! ## Every byte is one command row -/

/-- R48, R49: the row a byte decodes to is encoded in that byte. -/
theorem encode_decodeCmd (cfg : Cfg) (b : Byte) : encode cfg (decodeCmd cfg b) = [b] := by
  unfold decodeCmd
  split_ifs <;> simp only [encode, *]

/-- R49: the decoder answers the ignored row exactly for the bytes that are none of the ten. -/
theorem decodeCmd_eq_cmdIgnored_iff (cfg : Cfg) (b : Byte) :
    decodeCmd cfg b = .cmdIgnored b ↔ b ∉ cfg.cmdBytes := by
  unfold decodeCmd
  split_ifs <;> simp [Cfg.cmdBytes, *]

theorem decodeCmd_wf (cfg : Cfg) (b : Byte) : (decodeCmd cfg b).wf cfg = true := by
  have hformat := decodeCmd_format cfg b
  have hencode := encode_decodeCmd cfg b
  cases hrow : decodeCmd cfg b <;> rw [hrow] at hformat hencode
  case cmdIgnored c =>
    obtain rfl : c = b := (List.cons.inj hencode).1
    exact decide_eq_true ((decodeCmd_eq_cmdIgnored_iff cfg _).1 hrow)
  case cmdForceAuto | cmdForceManual | cmdStraight | cmdSoftLeft | cmdSoftRight | cmdHardLeft | cmdHardRight
      | cmdForward | cmdBackward | cmdNeutral => rfl
  all_goals exact nomatch hformat

/-- Settles O2: the row is the one the decoder answers, and any other row with this byte decodes to itself. -/
theorem everyByteIsOneCommand : Obligations.EveryByteIsOneCommand := fun cfg b _ hcfg =>
  ⟨decodeCmd cfg b, rfl, decodeCmd_format cfg b, decodeCmd_wf cfg b, encode_decodeCmd cfg b,
    fun _ hformat hwf hencode => (decodeCmd_of_encode hcfg hformat hwf hencode).symm⟩

/-! ## The number of ignored bytes -/

/-- Every byte once, in the order of its value. -/
def allBytes : List Byte := (List.range 256).map (BitVec.ofNat 8)

theorem allBytes_nodup : allBytes.Nodup := by
  refine List.Nodup.map_on (fun a ha b hb hab => ?_) List.nodup_range
  have hval := congrArg BitVec.toNat hab
  rwa [BitVec.toNat_ofNat, BitVec.toNat_ofNat, Nat.mod_eq_of_lt (List.mem_range.1 ha),
    Nat.mod_eq_of_lt (List.mem_range.1 hb)] at hval

theorem mem_allBytes (b : Byte) : b ∈ allBytes :=
  List.mem_map.2 ⟨b.toNat, List.mem_range.2 b.isLt, (BitVec.ofNat_toNat 8 b).trans (BitVec.setWidth_eq b)⟩

theorem length_allBytes : allBytes.length = 256 := by rw [allBytes, List.length_map, List.length_range]

/-- A list of distinct bytes leaves the others: the bytes in it are a permutation of it. -/
theorem length_filter_notMem_allBytes {bs : List Byte} (hbs : bs.Nodup) :
    (allBytes.filter fun b => decide (b ∉ bs)).length = 256 - bs.length := by
  have hin : (allBytes.filter fun b => decide (b ∈ bs)).Perm bs :=
    (List.perm_ext_iff_of_nodup (allBytes_nodup.filter _) hbs).2 fun b => by simp [mem_allBytes]
  have hsplit := List.length_eq_length_filter_add (l := allBytes) fun b => decide (b ∈ bs)
  rw [hin.length_eq, length_allBytes] at hsplit
  simp only [decide_not]
  omega

/-- Settles O3: the ignored bytes are those outside the list of the ten distinct command bytes. -/
theorem twoHundredFortySixBytesAreIgnored : Obligations.TwoHundredFortySixBytesAreIgnored := by
  intro cfg hcfg
  obtain ⟨hdistinct, _⟩ := Cfg.wf_bytes_distinct hcfg
  have hcount := length_filter_notMem_allBytes hdistinct
  rw [allBytes, List.filter_map, List.length_map] at hcount
  simp only [decodeCmd_eq_cmdIgnored_iff]
  exact hcount

/-! ## The words of the table and the numeric codes -/

/-- Settles O4: each word is one byte of the default configuration, evaluated. -/
theorem tableWordsDecode : Obligations.TableWordsDecode := by
  refine ⟨?_, ?_, ?_, ?_, ?_, ?_, ?_, ?_, ?_, ?_, ?_, ?_, ?_, ?_⟩ <;> decide

end Sys2Proof.Machine

namespace Sys2Proof

theorem Chan.ofCode_code (c : Chan) : Chan.ofCode c.code = some c := by cases c <;> rfl

theorem Mode.ofCode_code (m : Mode) : Mode.ofCode m.code = m := by cases m <;> rfl

theorem SteerSym.ofCode_code (y : SteerSym) : SteerSym.ofCode y.code = some y := by cases y <;> rfl

theorem DriveSym.ofCode_code (y : DriveSym) : DriveSym.ofCode y.code = some y := by cases y <;> rfl

theorem DriveState.ofCode_code (d : DriveState) : DriveState.ofCode d.code = some d := by cases d <;> rfl

/-- R51: the codes without a steering symbol are those behind the five. -/
theorem SteerSym.ofCode_eq_none_iff : ∀ v : BitVec 3, SteerSym.ofCode v = none ↔ 5 ≤ v.toNat := by decide

theorem code_driveAuto (y : DriveSym) : (Machine.driveAuto y).code = y.code := by cases y <;> rfl

/-- Settles O5: the codes are the equations of their functions, and each code is read back member by member. -/
theorem enumerationCodes : Obligations.EnumerationCodes :=
  ⟨⟨rfl, rfl, rfl⟩, ⟨rfl, rfl⟩, ⟨rfl, rfl, rfl, rfl, rfl⟩, ⟨rfl, rfl, rfl⟩, ⟨rfl, rfl, rfl⟩,
    Chan.ofCode_code, rfl, Mode.ofCode_code, SteerSym.ofCode_code, SteerSym.ofCode_eq_none_iff,
    DriveSym.ofCode_code, rfl, DriveState.ofCode_code, rfl, code_driveAuto⟩

end Sys2Proof
end

section
/-! PROOFS. Runs (20_memory.md R39): a run taken apart at its first operation, the induction over a run, and what is true of
every run because it is true of every operation. -/

namespace Sys2Proof.Machine

/-! ## A run taken apart -/

theorem runInstrs_cons_eq_next {i : Instr} {is : List Instr} {s t : State} :
    runInstrs (i :: is) s = .next t ↔ ∃ u, exec i s = .next u ∧ runInstrs is u = .next t := by
  rw [runInstrs]
  cases exec i s <;> simp

theorem runEvents_cons_eq_next {e : Event} {es : List Event} {s t : State} :
    runEvents (e :: es) s = .next t ↔ ∃ u, exec e.toInstr s = .next u ∧ runEvents es u = .next t :=
  runInstrs_cons_eq_next

theorem runEvents_nil (s : State) : runEvents [] s = .next s := rfl

theorem runEvents_append_eq_next {es fs : List Event} {s t : State} :
    runEvents (es ++ fs) s = .next t ↔ ∃ u, runEvents es s = .next u ∧ runEvents fs u = .next t := by
  induction es generalizing s with
  | nil => simp [runEvents_nil]
  | cons e es ih =>
    simp only [List.cons_append, runEvents_cons_eq_next, ih]
    constructor
    · rintro ⟨u, hu, v, hv, ht⟩
      exact ⟨v, ⟨u, hu, hv⟩, ht⟩
    · rintro ⟨v, ⟨u, hu, hv⟩, ht⟩
      exact ⟨u, hu, v, hv, ht⟩

/-- What holds at the start of a run and is kept by each of its events holds at its end. -/
theorem runEvents_induction {P : State → Prop} {es : List Event} {s t : State} (hrun : runEvents es s = .next t)
    (hstart : P s) (hstep : ∀ e ∈ es, ∀ u v, P u → exec e.toInstr u = .next v → P v) : P t := by
  induction es generalizing s with
  | nil =>
    obtain rfl : s = t := Host.Outcome.next.inj hrun
    exact hstart
  | cons e es ih =>
    obtain ⟨u, hu, hrest⟩ := runEvents_cons_eq_next.1 hrun
    exact ih hrest (hstep e List.mem_cons_self s u hstart hu) fun f hf => hstep f (List.mem_cons_of_mem e hf)

/-! ## The configuration and the schedule -/

theorem exec_cfg {i : Instr} {s t : State} (h : exec i s = .next t) : t.cfg = s.cfg := by
  obtain ⟨_, _, rfl⟩ := exec_eq_next.1 h
  exact effectOf_cfg s i

theorem exec_pending {i : Instr} {s t : State} (h : exec i s = .next t) : t.pending = s.pending := by
  obtain ⟨_, _, rfl⟩ := exec_eq_next.1 h
  exact effectOf_pending s i

/-- Settles O13: an operation is its effect, and no effect writes the two fields. -/
theorem configurationIsNeverWritten : Obligations.ConfigurationIsNeverWritten :=
  fun _ _ _ h => ⟨exec_cfg h, exec_pending h⟩

/-- R145: admitted events complete under a well-formed configuration, whatever state they find. -/
theorem runEvents_completes {es : List Event} {s : State} (hcfg : s.cfg.wf = true)
    (hes : ∀ e ∈ es, e.wf s.cfg = true) : ∃ t, runEvents es s = .next t := by
  induction es generalizing s with
  | nil => exact ⟨s, rfl⟩
  | cons e es ih =>
    obtain ⟨he, hes⟩ := List.forall_mem_cons.1 hes
    have hexec := exec_of_operandsFit hcfg ((Event.operandsFit_eq_wf s.cfg e).trans he)
    have hsame := effectOf_cfg s e.toInstr
    obtain ⟨t, ht⟩ := ih (s := effectOf s e.toInstr) (hsame ▸ hcfg) (hsame ▸ hes)
    exact ⟨t, runEvents_cons_eq_next.2 ⟨_, hexec, ht⟩⟩

/-! ## Sampled time -/

/-- A sample has a true time as late as wanted. -/
theorem exists_trueTime (w lo v : Nat) (hv : v < 2 ^ w) : ∃ T, lo ≤ T ∧ T % 2 ^ w = v := by
  refine ⟨v + 2 ^ w * lo, ?late, by rw [Nat.add_mul_mod_self_left, Nat.mod_eq_of_lt hv]⟩
  case late => exact (Nat.le_mul_of_pos_left lo (Nat.two_pow_pos w)).trans (Nat.le_add_left _ _)

/-- R155: from any moment on, a sequence of samples has true times that do not decrease. -/
theorem exists_trueTimes_from {w : Nat} {samples : List Nat} (hfit : ∀ v ∈ samples, v < 2 ^ w) (lo : Nat) :
    ∃ times, (∀ T ∈ times, lo ≤ T) ∧ TrueTimes w samples times := by
  induction samples generalizing lo with
  | nil => exact ⟨[], by simp, rfl, List.Pairwise.nil, rfl⟩
  | cons v samples ih =>
    obtain ⟨hv, hfit⟩ := List.forall_mem_cons.1 hfit
    obtain ⟨T, hlate, hT⟩ := exists_trueTime w lo v hv
    obtain ⟨times, hlater, hlength, hsorted, hsamples⟩ := ih hfit T
    refine ⟨T :: times, ?_, ?_, List.pairwise_cons.2 ⟨hlater, hsorted⟩, ?_⟩
    · exact List.forall_mem_cons.2 ⟨hlate, fun U hU => hlate.trans (hlater U hU)⟩
    · rw [List.length_cons, List.length_cons, hlength]
    · rw [List.map_cons, hT, hsamples]

/-- Settles O16: each sample is placed behind the time of the one before it, a whole number of wraps later. -/
theorem everySampleSequenceHasTrueTimes : Obligations.EverySampleSequenceHasTrueTimes := by
  intro w samples hfit
  obtain ⟨times, _, htimes⟩ := exists_trueTimes_from hfit 0
  exact ⟨times, htimes⟩

end Sys2Proof.Machine
end

section
/-! PROOFS. The control registers of the block: the registers that the mode controller and the command interpreter read and
write. What these two make of them does not depend on the rest of the state, so a tick is one update of the control registers
beside the update of the rings and the write of the outputs (45_scheduler_tick.md R136). -/

namespace Sys2Proof.Machine

/-! ## The control registers -/

/-- `s` with the control registers of `k`. -/
def State.withControl (s k : State) : State :=
  { s with
    mode := k.mode, prevSel := k.prevSel, steerSym := k.steerSym, driveSym := k.driveSym, rxq := k.rxq, tx := k.tx }

theorem withControl_self (s : State) : s.withControl s = s := rfl

@[simp] theorem withControl_cfg (s k : State) : (s.withControl k).cfg = s.cfg := rfl

/-- MODE.XING reads and writes control registers only. -/
theorem xing_withControl {s k : State} (v : Nat) (hcfg : s.cfg = k.cfg) :
    (s.withControl k).xing v = s.withControl (k.xing v) := by
  have hsame : crossing (s.withControl k).cfg (s.withControl k).prevSel v = crossing k.cfg k.prevSel v := by
    rw [withControl_cfg, hcfg]
    rfl
  cases hx : crossing k.cfg k.prevSel v
  case false => rw [xing_of_not_crossing (hsame.trans hx), xing_of_not_crossing hx]; rfl
  case true => rw [xing_of_crossing (hsame.trans hx), xing_of_crossing hx]; simp only [State.withControl, hcfg]

theorem forceMode_withControl {s k : State} (m : Mode) (hcfg : s.cfg = k.cfg) :
    (s.withControl k).forceMode m = s.withControl (k.forceMode m) := by
  by_cases hm : k.mode = m
  · rw [forceMode_of_mode_eq hm, forceMode_of_mode_eq (show (s.withControl k).mode = m from hm)]
  · rw [forceMode_of_mode_ne hm, forceMode_of_mode_ne (show (s.withControl k).mode ≠ m from hm)]
    simp only [State.withControl, hcfg]

theorem steerCommand_withControl (s k : State) (y : SteerSym) :
    (s.withControl k).steerCommand y = s.withControl (k.steerCommand y) :=
  (apply_ite (State.withControl s) (k.mode = .autonomous) (k.setSteerSym y) k).symm

theorem driveCommand_withControl (s k : State) (y : DriveSym) :
    (s.withControl k).driveCommand y = s.withControl (k.driveCommand y) :=
  (apply_ite (State.withControl s) (k.mode = .autonomous) (k.setDriveSym y) k).symm

/-- The dispatch of a byte reads and writes control registers only. -/
theorem command_withControl {s k : State} (b : Byte) (hcfg : s.cfg = k.cfg) :
    (s.withControl k).command b = s.withControl (k.command b) := by
  rw [State.command, State.command, withControl_cfg, hcfg]
  cases decodeCmd k.cfg b
  case cmdForceAuto | cmdForceManual => exact forceMode_withControl _ hcfg
  case cmdStraight | cmdSoftLeft | cmdSoftRight | cmdHardLeft | cmdHardRight => exact steerCommand_withControl s k _
  case cmdForward | cmdBackward | cmdNeutral => exact driveCommand_withControl s k _
  all_goals rfl

/-- CMD.DRAIN reads and writes control registers only. -/
theorem drain_withControl {s k : State} (hcfg : s.cfg = k.cfg) : (s.withControl k).drain = s.withControl k.drain := by
  have hfold (q : List Byte) : ∀ {k : State}, s.cfg = k.cfg →
      q.foldl State.command (s.withControl k) = s.withControl (q.foldl State.command k) := by
    induction q with
    | nil => exact fun _ => rfl
    | cons b q ih =>
      intro k hcfg
      rw [List.foldl_cons, List.foldl_cons, command_withControl b hcfg]
      exact ih (hcfg.trans (command_cfg k b).symm)
  rw [drain_eq_foldl, drain_eq_foldl]
  exact hfold k.rxq (k := { k with rxq := [] }) hcfg

theorem xing_cfg (s : State) (v : Nat) : (s.xing v).cfg = s.cfg := by
  rcases xing_cases s v with ⟨_, h⟩ | ⟨_, h⟩ <;> rw [h]

/-! ## The tick by its three parts -/

/-- The control registers an executed tick leaves: MODE.XING on the raw mode-select width, then CMD.DRAIN. -/
def State.tickControl (s : State) : State := (s.xing (s.ch .modeSelect).raw).drain

/-- The rings an executed tick leaves: FILT.UPDATE on the raw steering and drive widths. -/
def State.tickFilter (s : State) : State := s.filtWrite (s.ch .steering).raw (s.ch .drive).raw

/-- The four values an executed tick writes: OUT.MAP over the new means and the new control registers. -/
def State.tickOutput (s : State) (phaseMs : Nat) : OutTuple :=
  s.tickControl.outMap s.tickFilter.means.fSteer s.tickFilter.means.fDrive phaseMs

/-- The last two phases of a tick, OUT.MAP and OUT.EMIT, after which the latch is empty. -/
def State.writeOutputs (d : State) (f : Filtered) (phaseMs : Nat) : State :=
  (d.emitRecord (d.outMap f.fSteer f.fDrive phaseMs).toPorts).setScratch {}

theorem runTick_eq_writeOutputs (s : State) (m p : Nat) :
    s.runTick m p =
      ((s.tickFilter.setLastTick m).xing (s.ch .modeSelect).raw).drain.writeOutputs s.tickFilter.means p := rfl

/-- OUT.MAP reads the configuration and control registers only. -/
theorem outMap_withControl {s k : State} (f g p : Nat) (hcfg : s.cfg = k.cfg) :
    (s.withControl k).outMap f g p = k.outMap f g p := by
  rw [State.outMap, State.outMap, withControl_cfg, hcfg]
  rfl

theorem tickControl_cfg (s : State) : s.tickControl.cfg = s.cfg := (drain_cfg _).trans (xing_cfg s _)

theorem tickControl_rxq (s : State) : s.tickControl.rxq = [] := drain_rxq _

/-- R136: an executed tick is its three parts, each taken from the state before the tick, and the record of its output. -/
theorem runTick_eq_parts (s : State) (m p : Nat) :
    s.runTick m p =
      (((s.tickFilter.withControl s.tickControl).setLastTick m).emitRecord (s.tickOutput p).toPorts).setScratch {} := by
  have hxing : (s.tickFilter.setLastTick m).xing (s.ch .modeSelect).raw =
      (s.tickFilter.setLastTick m).withControl (s.xing (s.ch .modeSelect).raw) :=
    xing_withControl (s := s.tickFilter.setLastTick m) (k := s) _ rfl
  have hdrain : ((s.tickFilter.setLastTick m).withControl (s.xing (s.ch .modeSelect).raw)).drain =
      (s.tickFilter.setLastTick m).withControl s.tickControl := drain_withControl (xing_cfg s _).symm
  have houtput : ((s.tickFilter.setLastTick m).withControl s.tickControl).outMap s.tickFilter.means.fSteer
      s.tickFilter.means.fDrive p = s.tickOutput p := outMap_withControl _ _ p (tickControl_cfg s).symm
  rw [runTick_eq_writeOutputs, hxing, hdrain, State.writeOutputs, houtput]
  rfl

/-! ## What an executed tick leaves in each register -/

@[simp] theorem runTick_cfg (s : State) (m p : Nat) : (s.runTick m p).cfg = s.cfg := by rw [runTick_eq_parts]; rfl

@[simp] theorem runTick_mode (s : State) (m p : Nat) : (s.runTick m p).mode = s.tickControl.mode := by
  rw [runTick_eq_parts]; rfl

@[simp] theorem runTick_prevSel (s : State) (m p : Nat) : (s.runTick m p).prevSel = s.tickControl.prevSel := by
  rw [runTick_eq_parts]; rfl

@[simp] theorem runTick_steerSym (s : State) (m p : Nat) : (s.runTick m p).steerSym = s.tickControl.steerSym := by
  rw [runTick_eq_parts]; rfl

@[simp] theorem runTick_driveSym (s : State) (m p : Nat) : (s.runTick m p).driveSym = s.tickControl.driveSym := by
  rw [runTick_eq_parts]; rfl

@[simp] theorem runTick_tx (s : State) (m p : Nat) : (s.runTick m p).tx = s.tickControl.tx := by
  rw [runTick_eq_parts]; rfl

@[simp] theorem runTick_rxq (s : State) (m p : Nat) : (s.runTick m p).rxq = [] := by
  rw [runTick_eq_parts]
  exact tickControl_rxq s

@[simp] theorem runTick_lastTickMs (s : State) (m p : Nat) : (s.runTick m p).lastTickMs = m := by
  rw [runTick_eq_parts]; rfl

@[simp] theorem runTick_records (s : State) (m p : Nat) :
    (s.runTick m p).records = s.records ++ [(s.tickOutput p).toPorts] := by
  rw [runTick_eq_parts]; rfl

@[simp] theorem runTick_ringSteer (s : State) (m p : Nat) : (s.runTick m p).ringSteer = s.tickFilter.ringSteer := by
  rw [runTick_eq_parts]; rfl

@[simp] theorem runTick_ringDrive (s : State) (m p : Nat) : (s.runTick m p).ringDrive = s.tickFilter.ringDrive := by
  rw [runTick_eq_parts]; rfl

theorem runTick_portsShow (s : State) (m p : Nat) : (s.runTick m p).PortsShow (some (s.tickOutput p).toPorts) := by
  rw [runTick_eq_parts]
  exact ⟨rfl, rfl, rfl, rfl⟩

/-! ## Fields beside the control registers -/

/-- `s` with another capture group and another schedule. -/
def State.around (s : State) (f : Channels) (q : List Stimulus) : State := { s with chans := f, pending := q }

/-- What reads and writes control registers only does not see the capture group and the schedule. -/
theorem around_comm_of_withControl {F : State → State}
    (hF : ∀ {s k : State}, s.cfg = k.cfg → F (s.withControl k) = s.withControl (F k)) (s : State) (f : Channels)
    (q : List Stimulus) : F (s.around f q) = (F s).around f q :=
  calc F (s.around f q)
    _ = (s.around f q).withControl (F s) := hF (s := s.around f q) (k := s) rfl
    _ = (s.withControl (F s)).around f q := rfl
    _ = (F s).around f q := by rw [← hF rfl, withControl_self]

theorem xing_around (s : State) (f : Channels) (q : List Stimulus) (v : Nat) :
    (s.around f q).xing v = (s.xing v).around f q :=
  around_comm_of_withControl (F := (State.xing · v)) (xing_withControl v) s f q

theorem drain_around (s : State) (f : Channels) (q : List Stimulus) : (s.around f q).drain = s.drain.around f q :=
  around_comm_of_withControl drain_withControl s f q

/-- Of the capture group a tick sees the three raw widths only, and of the schedule nothing. -/
theorem runTick_around {s : State} {f : Channels} (q : List Stimulus) (m p : Nat)
    (hraw : ∀ c, (f.get c).raw = (s.ch c).raw) : (s.around f q).runTick m p = (s.runTick m p).around f q := by
  have hfilter : (s.around f q).tickFilter = s.tickFilter.around f q := by
    have hsteer : ((s.around f q).ch .steering).raw = (s.ch .steering).raw := hraw .steering
    have hdrive : ((s.around f q).ch .drive).raw = (s.ch .drive).raw := hraw .drive
    rw [State.tickFilter, hsteer, hdrive]
    rfl
  have hcontrol : (s.around f q).tickControl = s.tickControl.around f q := by
    have hselect : ((s.around f q).ch .modeSelect).raw = (s.ch .modeSelect).raw := hraw .modeSelect
    rw [State.tickControl, hselect, xing_around, drain_around]
    rfl
  rw [runTick_eq_parts, runTick_eq_parts, State.tickOutput, hfilter, hcontrol]
  rfl

end Sys2Proof.Machine
end

section
/-! PROOFS. The output mapper (44_output_mapper.md R116 to R129): the manual steering map, the manual drive decision, the
turn and brake conditions, what the tuple depends on and the ranges it keeps. -/

namespace Sys2Proof.Machine

/-! ## The manual steering map -/

/-- R116: the part of the servo range that the affine map adds to its lower end. -/
def steerShare (cfg : Cfg) (x : Nat) : Nat :=
  (x - cfg.steerInMinUs) * (cfg.steerOutMaxDeg - cfg.steerOutMinDeg) / (cfg.steerInMaxUs - cfg.steerInMinUs)

theorem steerShare_mono (cfg : Cfg) {x y : Nat} (h : x ≤ y) : steerShare cfg x ≤ steerShare cfg y :=
  Nat.div_le_div_right (Nat.mul_le_mul_right _ (Nat.sub_le_sub_right h _))

/-- The lower end of the input range takes no share of the servo range. -/
theorem steerShare_inMin (cfg : Cfg) : steerShare cfg cfg.steerInMinUs = 0 := by
  rw [steerShare, Nat.sub_self, Nat.zero_mul, Nat.zero_div]

/-- The upper end of the input range takes the whole servo range. -/
theorem steerShare_inMax {cfg : Cfg} (hcfg : cfg.wf = true) :
    steerShare cfg cfg.steerInMaxUs = cfg.steerOutMaxDeg - cfg.steerOutMinDeg :=
  Nat.mul_div_cancel_left _ (Nat.sub_pos_of_lt (Cfg.wf_ranges hcfg).1)

/-- R116, R117: no input takes more than the whole servo range, so the clamp at the output never changes the value. -/
theorem steerManual_eq {cfg : Cfg} (f : Nat) (hcfg : cfg.wf = true) :
    steerManual cfg f =
      cfg.steerOutMinDeg + steerShare cfg (min (max f cfg.steerInMinUs) cfg.steerInMaxUs) := by
  obtain ⟨hin, hout⟩ := Cfg.wf_ranges hcfg
  have hshare := steerShare_mono cfg (min_le_right (max f cfg.steerInMinUs) cfg.steerInMaxUs)
  rw [steerShare_inMax hcfg] at hshare
  rw [steerManual, clamp_eq_min_max hin.le]
  exact clamp_of_mem (Nat.le_add_right _ _) (by rw [← steerShare]; omega)

theorem steerManual_mono {cfg : Cfg} {f g : Nat} (hcfg : cfg.wf = true) (h : f ≤ g) :
    steerManual cfg f ≤ steerManual cfg g := by
  rw [steerManual_eq f hcfg, steerManual_eq g hcfg]
  exact Nat.add_le_add_left (steerShare_mono cfg (min_le_min_right _ (max_le_max_right _ h))) _

theorem steerManual_inMin {cfg : Cfg} (hcfg : cfg.wf = true) :
    steerManual cfg cfg.steerInMinUs = cfg.steerOutMinDeg := by
  rw [steerManual_eq _ hcfg, max_self, min_eq_left (Cfg.wf_ranges hcfg).1.le, steerShare_inMin, Nat.add_zero]

theorem steerManual_inMax {cfg : Cfg} (hcfg : cfg.wf = true) :
    steerManual cfg cfg.steerInMaxUs = cfg.steerOutMaxDeg := by
  obtain ⟨hin, hout⟩ := Cfg.wf_ranges hcfg
  rw [steerManual_eq _ hcfg, max_eq_left hin.le, min_self, steerShare_inMax hcfg, Nat.add_sub_cancel' hout.le]

/-- Ninety degrees over nine hundred microseconds: one degree for every ten. -/
theorem steerManual_default (f : Nat) : steerManual Cfg.default f = 45 + (min (max f 900) 1800 - 900) / 10 := by
  rw [steerManual_eq f (by decide), steerShare]
  simp only [Cfg.default]
  omega

/-- Settles O45: the share of the servo range is increasing and nothing at the lower end, and the whole of it at the upper
one. -/
theorem manualSteeringIsAffineAndMonotone : Obligations.ManualSteeringIsAffineAndMonotone :=
  ⟨fun _ f hcfg => steerManual_eq f hcfg, fun _ _ _ hcfg h => steerManual_mono hcfg h,
    fun _ hcfg => ⟨steerManual_inMin hcfg, steerManual_inMax hcfg⟩, steerManual_default⟩

/-! ## The manual drive decision -/

theorem driveManual_of_lt {cfg : Cfg} {f : Nat} (h : cfg.driveFwdThreshUs < f) : driveManual cfg f = .dForward :=
  if_pos h

theorem driveManual_of_mem {cfg : Cfg} {f : Nat} (hlo : cfg.driveRevThreshUs ≤ f) (hhi : f ≤ cfg.driveFwdThreshUs) :
    driveManual cfg f = .dNeutral := by
  rw [driveManual, if_neg hhi.not_gt, if_neg hlo.not_gt]

/-- The test of the lower threshold stands behind that of the upper one; neutral lies between them (R5 (c)). -/
theorem driveManual_eq_dReverse_iff {cfg : Cfg} {f : Nat} (hcfg : cfg.wf = true) :
    driveManual cfg f = .dReverse ↔ f < cfg.driveRevThreshUs := by
  obtain ⟨hrev, hfwd, _⟩ := Cfg.wf_deadband hcfg
  rw [driveManual]
  split_ifs <;> simp <;> omega

/-- Settles O46: the pulse table over the three ranges of the decision; forward at 1900 is R5 (d) and neutral at the neutral
value R5 (c). -/
theorem manualDriveIsTriState : Obligations.ManualDriveIsTriState := by
  intro cfg f hcfg
  obtain ⟨hrev, hfwd, _⟩ := Cfg.wf_deadband hcfg
  obtain ⟨_, _, _, hforward, _⟩ := (Cfg.wf_iff cfg).1 hcfg
  refine ⟨fun h => ?forward, fun h => ?reverse, fun ⟨hlo, hhi⟩ => ?neutral,
    driveManual_of_lt hforward, driveManual_of_mem hrev.le hfwd.le⟩
  case forward => rw [driveManual_of_lt h, drivePulse]
  case reverse => rw [(driveManual_eq_dReverse_iff hcfg).2 h, drivePulse]
  case neutral => rw [driveManual_of_mem hlo hhi, drivePulse]

/-! ## The conditions of the indicator logic -/

theorem brake_eq_true_iff (ds : DriveState) : brake ds = true ↔ ds = .dReverse := decide_eq_true_iff

theorem turn_of_leftIsLowAngle {cfg : Cfg} (angle : Nat) (h : cfg.leftIsLowAngle = true) :
    turnLeft cfg angle = lowAngle cfg angle ∧ turnRight cfg angle = highAngle cfg angle := by
  rw [turnLeft, turnRight, if_pos h, if_pos h]
  exact ⟨rfl, rfl⟩

theorem turn_of_leftIsHighAngle {cfg : Cfg} (angle : Nat) (h : cfg.leftIsLowAngle = false) :
    turnLeft cfg angle = highAngle cfg angle ∧ turnRight cfg angle = lowAngle cfg angle := by
  rw [turnLeft, turnRight, if_neg (Bool.eq_false_iff.1 h), if_neg (Bool.eq_false_iff.1 h)]
  exact ⟨rfl, rfl⟩

/-- Settles O59: on either side of the configuration's choice the two turns are the two sides of the dead-band. -/
theorem brakeIsReverseAndTurnIsBeyondTheDeadband : Obligations.BrakeIsReverseAndTurnIsBeyondTheDeadband := by
  have low (cfg : Cfg) (angle : Nat) (h : cfg.leftIsLowAngle = true) :
      (turnLeft cfg angle = true ↔ angle < cfg.steerCenterDeg - cfg.turnDeadbandDeg) ∧
      (turnRight cfg angle = true ↔ cfg.steerCenterDeg + cfg.turnDeadbandDeg < angle) := by
    obtain ⟨hleft, hright⟩ := turn_of_leftIsLowAngle angle h
    rw [hleft, hright]
    exact ⟨lowAngle_eq_true_iff cfg angle, highAngle_eq_true_iff cfg angle⟩
  refine ⟨brake_eq_true_iff, low, fun cfg angle h => ?high, fun cfg angle _ hleft => ?exclusive,
    fun angle => low Cfg.default angle rfl⟩
  case high =>
    obtain ⟨hleft, hright⟩ := turn_of_leftIsHighAngle angle h
    rw [hleft, hright]
    exact ⟨highAngle_eq_true_iff cfg angle, lowAngle_eq_true_iff cfg angle⟩
  case exclusive =>
    refine Bool.eq_false_iff.2 fun hright => ?_
    rw [turnLeft_eq_false_of_turnRight hright] at hleft
    exact Bool.false_ne_true hleft

/-! ## The tuple -/

/-- R122: in Manual the tuple is the manual path's. -/
theorem outMap_of_manual {s : State} (f g p : Nat) (h : s.mode = .manual) :
    s.outMap f g p =
      let leds := indicators s.cfg (steerManual s.cfg f) (driveManual s.cfg g) p
      ⟨steerManual s.cfg f, drivePulse s.cfg (driveManual s.cfg g), leds.1, leds.2⟩ := by
  simp only [State.outMap, h, if_true]

/-- R122: in Autonomous the tuple is the intent's. -/
theorem outMap_of_autonomous {s : State} (f g p : Nat) (h : s.mode = .autonomous) :
    s.outMap f g p =
      let leds := indicators s.cfg (steerAuto s.cfg s.steerSym) (driveAuto s.driveSym) p
      ⟨steerAuto s.cfg s.steerSym, drivePulse s.cfg (driveAuto s.driveSym), leds.1, leds.2⟩ := by
  simp only [State.outMap, h, reduceCtorEq, if_false]

theorem exec_outMap {f g p : Nat} {s : State} (hcfg : s.cfg.wf = true) (hf : f < 2 ^ s.cfg.wUs)
    (hg : g < 2 ^ s.cfg.wUs) (hp : p < 2 ^ s.cfg.wMs) :
    exec (.outMap f g p) s = .next (s.setScratch { s.scratch with out := some (s.outMap f g p) }) :=
  exec_of_operandsFit hcfg (by simp [operandsFit, fitsUs, fitsMs, hf, hg, hp])

/-- Settles O44: the phase writes the latch only, and each mode reads its own path; the tables are their rows. -/
theorem outputMapRoutesByMode : Obligations.OutputMapRoutesByMode := by
  refine ⟨fun f g p s hcfg hf hg hp => ⟨s.outMap f g p, exec_outMap hcfg hf hg hp, ?manual, ?autonomous⟩,
    fun _ => ⟨rfl, rfl, rfl, rfl, rfl⟩, ⟨rfl, rfl, rfl⟩, fun _ => ⟨rfl, rfl, rfl⟩⟩
  case manual =>
    intro hmode
    rw [outMap_of_manual f g p hmode]
    exact ⟨rfl, rfl, rfl⟩
  case autonomous =>
    intro hmode
    rw [outMap_of_autonomous f g p hmode]
    exact ⟨rfl, rfl, rfl⟩

/-- R125: the lamps read the phase by its residue in the blink period. -/
theorem indicators_congr_phase (cfg : Cfg) (angle : Nat) (ds : DriveState) {p p' : Nat}
    (h : p % cfg.blinkPeriodMs = p' % cfg.blinkPeriodMs) :
    indicators cfg angle ds p = indicators cfg angle ds p' := by
  rw [indicators, indicators, blinkOn, blinkOn, h]

/-- Settles O48: in each mode the tuple is written in the values of that mode's path. -/
theorem outputMapIsPure : Obligations.OutputMapIsPure := by
  intro s s' f f' g g' p p' hcfg hmode hphase hmanual hautonomous
  cases hm : s.mode
  case manual =>
    obtain ⟨rfl, rfl⟩ := hmanual hm
    rw [outMap_of_manual f g p hm, outMap_of_manual f g p' (hmode ▸ hm), ← hcfg, indicators_congr_phase _ _ _ hphase]
  case autonomous =>
    obtain ⟨hsteer, hdrive⟩ := hautonomous hm
    rw [outMap_of_autonomous f g p hm, outMap_of_autonomous f' g' p' (hmode ▸ hm), ← hcfg, ← hsteer, ← hdrive,
      indicators_congr_phase _ _ _ hphase]

/-! ## The ranges -/

theorem steerManual_mem {cfg : Cfg} (f : Nat) (hcfg : cfg.wf = true) :
    cfg.steerOutMinDeg ≤ steerManual cfg f ∧ steerManual cfg f ≤ cfg.steerOutMaxDeg :=
  have hout := (Cfg.wf_ranges hcfg).2.le
  ⟨le_clamp hout, clamp_le hout⟩

theorem steerAuto_mem {cfg : Cfg} (y : SteerSym) (hcfg : cfg.wf = true) :
    cfg.steerOutMinDeg ≤ steerAuto cfg y ∧ steerAuto cfg y ≤ cfg.steerOutMaxDeg := by
  refine Cfg.wf_angles hcfg _ ?_
  cases y <;> simp [Cfg.angles, steerAuto]

theorem drivePulse_cases (cfg : Cfg) (ds : DriveState) :
    drivePulse cfg ds = cfg.driveFwdUs ∨ drivePulse cfg ds = cfg.driveRevUs ∨
      drivePulse cfg ds = cfg.driveNeutralUs := by
  cases ds
  case dForward => exact .inl rfl
  case dReverse => exact .inr (.inl rfl)
  case dNeutral => exact .inr (.inr rfl)

/-- R129: the tuple is in range whatever the filtered values and the phase. -/
theorem outMap_inRange {s : State} (f g p : Nat) (hcfg : s.cfg.wf = true) : (s.outMap f g p).InRange s.cfg := by
  cases hm : s.mode
  case manual =>
    obtain ⟨hlo, hhi⟩ := steerManual_mem f hcfg
    rw [outMap_of_manual f g p hm]
    exact ⟨hlo, hhi, drivePulse_cases _ _⟩
  case autonomous =>
    obtain ⟨hlo, hhi⟩ := steerAuto_mem s.steerSym hcfg
    rw [outMap_of_autonomous f g p hm]
    exact ⟨hlo, hhi, drivePulse_cases _ _⟩

/-- R126: without the brake at most one lamp is on. -/
theorem brake_of_both_lamps {cfg : Cfg} {angle p : Nat} {ds : DriveState}
    (hl : (indicators cfg angle ds p).1 = true) (hr : (indicators cfg angle ds p).2 = true) : ds = .dReverse := by
  rw [indicators] at hl hr
  split_ifs at hl hr with hbrake
  exact of_decide_eq_true hbrake

theorem driveAuto_eq_dReverse_iff (y : DriveSym) : driveAuto y = .dReverse ↔ y = .backward := by
  cases y <;> decide

/-- Settles O49: the ranges hold in each mode, and both lamps on are the brake, which is the reverse state of the mode's
path. -/
theorem outputsAreAlwaysInRange : Obligations.OutputsAreAlwaysInRange := by
  refine fun s f g p hcfg => ⟨outMap_inRange f g p hcfg, ?lamps⟩
  case lamps =>
    cases hm : s.mode
    case manual =>
      rw [outMap_of_manual f g p hm]
      exact fun hl hr => .inl ⟨rfl, (driveManual_eq_dReverse_iff hcfg).1 (brake_of_both_lamps hl hr)⟩
    case autonomous =>
      rw [outMap_of_autonomous f g p hm]
      exact fun hl hr => .inr ⟨rfl, (driveAuto_eq_dReverse_iff _).1 (brake_of_both_lamps hl hr)⟩

/-! ## The ports -/

theorem toNat_anglePort {v : Nat} (h : v < 2 ^ 8) : (anglePort v).toNat = v := by
  rw [anglePort_of_lt h, BitVec.toNat_ofNat, Nat.mod_eq_of_lt h]

theorem toNat_pulsePort {v : Nat} (h : v < 2 ^ 16) : (pulsePort v).toNat = v := by
  rw [pulsePort_of_lt h, BitVec.toNat_ofNat, Nat.mod_eq_of_lt h]

theorem exec_outEmit {a p : Nat} (l r : Bool) {s : State} (hcfg : s.cfg.wf = true) (ha : a < 2 ^ 8)
    (hp : p < 2 ^ 16) : exec (.outEmit a p l r) s = .next (s.emitRecord (OutTuple.mk a p l r).toPorts) :=
  exec_of_operandsFit hcfg (Bool.and_eq_true_iff.2 ⟨decide_eq_true ha, decide_eq_true hp⟩)

/-- Settles O50: the four writes are one record, whose servo values fit their ports. -/
theorem outEmitWritesAllPorts : Obligations.OutEmitWritesAllPorts := by
  intro a p l r s hcfg ha hp
  rw [exec_outEmit l r hcfg ha hp, OutTuple.toPorts, anglePort_of_lt ha, pulsePort_of_lt hp, State.emitRecord]

/-- Under a configuration that fits the ports, a record in range shows its angle and its pulse. -/
theorem OutRecord.InRange.toNat_mem {cfg : Cfg} {r : OutRecord} (h : r.InRange cfg) (hfits : FitsPorts cfg) :
    (cfg.steerOutMinDeg ≤ r.angle.toNat ∧ r.angle.toNat ≤ cfg.steerOutMaxDeg) ∧
    (r.pulse.toNat = cfg.driveFwdUs ∨ r.pulse.toNat = cfg.driveRevUs ∨ r.pulse.toNat = cfg.driveNeutralUs) := by
  obtain ⟨x, ⟨hlo, hhi, hpulse⟩, rfl⟩ := h
  obtain ⟨hangle, hfwd, hrev, hneutral⟩ := hfits
  have hpulseFits : x.pulse < 2 ^ 16 := by rcases hpulse with h | h | h <;> rw [h] <;> assumption
  rw [OutTuple.toPorts_angle, OutTuple.toPorts_pulse, toNat_anglePort (hhi.trans_lt hangle), toNat_pulsePort hpulseFits]
  exact ⟨⟨hlo, hhi⟩, hpulse⟩

/-- Settles O60: the records of a good state are in range, and its ports hold the last of them or nothing. -/
theorem portsHoldWhatFitsThem : Obligations.PortsHoldWhatFitsThem := by
  refine ⟨fun _ => toNat_anglePort, fun _ => toNat_pulsePort, fun s hinv hfits => ?good⟩
  case good =>
    have hrecords (r : OutRecord) (hr : r ∈ s.records) := (hinv.recordsInRange r hr).toNat_mem hfits
    have hports := hinv.portsShow
    cases hlast : s.records.getLast? <;> rw [hlast] at hports
    case none =>
      obtain ⟨hangle, hpulse, _, _⟩ := hports
      refine ⟨hrecords, fun a ha => ?_, fun p hp => ?_⟩
      · exact absurd (hangle.symm.trans ha) nofun
      · exact absurd (hpulse.symm.trans hp) nofun
    case some r =>
      obtain ⟨hangle, hpulse, _, _⟩ := hports
      obtain ⟨hr_angle, hr_pulse⟩ := hrecords r (List.mem_of_getLast? hlast)
      refine ⟨hrecords, fun a ha => ?_, fun p hp => ?_⟩
      · obtain rfl := Option.some.inj (hangle.symm.trans ha)
        exact hr_angle
      · obtain rfl := Option.some.inj (hpulse.symm.trans hp)
        exact hr_pulse

end Sys2Proof.Machine
end

section
/-! PROOFS. The observation (00_scope.md R9, 42_mode_controller.md R90): the status bytes an operation appends follow its
changes of mode, and neither the status stream nor the record sequence loses anything. -/

namespace Sys2Proof.Machine

/-! ## Status bytes that follow the mode -/

/-- R29 (d): the next status byte of a stream is that of the other mode. -/
theorem streamMode_cons (cfg : Cfg) (m : Mode) (b : Byte) (bs : List Byte) :
    streamMode cfg m (b :: bs) =
      if b = notifyByte cfg (otherMode m) then streamMode cfg (otherMode m) bs else none := by
  cases m <;> rfl

theorem streamMode_nil (cfg : Cfg) (m : Mode) : streamMode cfg m [] = some m := by cases m <;> rfl

theorem streamMode_append (cfg : Cfg) (m : Mode) (as bs : List Byte) :
    streamMode cfg m (as ++ bs) = (streamMode cfg m as).bind fun m' => streamMode cfg m' bs := by
  induction as generalizing m with
  | nil => rw [List.nil_append, streamMode_nil, Option.bind_some]
  | cons a as ih =>
    rw [List.cons_append, streamMode_cons, streamMode_cons]
    split_ifs
    · exact ih _
    · rfl

/-- R90: the status byte of the other mode is the one that may come next. -/
theorem streamMode_notifyByte {m m' : Mode} (cfg : Cfg) (h : m ≠ m') :
    streamMode cfg m [notifyByte cfg m'] = some m' := by
  rw [streamMode_cons, otherMode_eq_of_ne h, if_pos rfl, streamMode_nil]

/-- From `s` to `t` every change of mode is notified: `t` holds further status bytes, which alternate from the mode of `s`
and end in that of `t`. -/
def State.NotifiesTo (s t : State) : Prop :=
  t.cfg = s.cfg ∧ ∃ bs, t.tx = s.tx ++ bs ∧ streamMode s.cfg s.mode bs = some t.mode

theorem State.NotifiesTo.of_unchanged {s t : State} (hcfg : t.cfg = s.cfg) (htx : t.tx = s.tx)
    (hmode : t.mode = s.mode) : s.NotifiesTo t :=
  ⟨hcfg, [], by rw [htx, List.append_nil], by rw [hmode, streamMode_nil]⟩

theorem State.NotifiesTo.refl (s : State) : s.NotifiesTo s := .of_unchanged rfl rfl rfl

theorem State.NotifiesTo.of_enter {s t : State} (hcfg : t.cfg = s.cfg)
    (htx : t.tx = s.tx ++ [notifyByte s.cfg t.mode]) (hne : s.mode ≠ t.mode) : s.NotifiesTo t :=
  ⟨hcfg, _, htx, streamMode_notifyByte s.cfg hne⟩

theorem State.NotifiesTo.trans {s t u : State} (hst : s.NotifiesTo t) (htu : t.NotifiesTo u) : s.NotifiesTo u := by
  obtain ⟨hcfg, bs, htx, hmode⟩ := hst
  obtain ⟨hcfg', bs', htx', hmode'⟩ := htu
  refine ⟨hcfg'.trans hcfg, bs ++ bs', by rw [htx', htx, List.append_assoc], ?_⟩
  rw [streamMode_append, hmode]
  exact hcfg ▸ hmode'

/-- R29 (d): a stream that ends in the mode of `s` is extended to one that ends in the mode of `t`. -/
theorem State.NotifiesTo.streamMode_eq {s t : State} {m : Mode} (h : s.NotifiesTo t)
    (hs : streamMode s.cfg m s.tx = some s.mode) : streamMode t.cfg m t.tx = some t.mode := by
  obtain ⟨hcfg, bs, htx, hmode⟩ := h
  rw [hcfg, htx, streamMode_append, hs]
  exact hmode

/-! ## Every operation notifies its changes of mode -/

theorem forceMode_notifies (s : State) (m : Mode) : s.NotifiesTo (s.forceMode m) := by
  rcases forceMode_cases s m with ⟨_, h⟩ | ⟨hne, h⟩ <;> rw [h]
  · exact .refl s
  · exact .of_enter rfl rfl hne

theorem xing_notifies (s : State) (v : Nat) : s.NotifiesTo (s.xing v) := by
  rcases xing_cases s v with ⟨_, h⟩ | ⟨_, h⟩ <;> rw [h]
  · exact .of_enter rfl rfl (otherMode_ne s.mode).symm
  · exact .of_unchanged rfl rfl rfl

theorem command_notifies (s : State) (b : Byte) : s.NotifiesTo (s.command b) := by
  rcases command_cases s b with ⟨m, hne, h⟩ | ⟨y, _, h⟩ | ⟨y, _, h⟩ | h <;> rw [h]
  · exact .of_enter rfl rfl hne
  · exact .of_unchanged rfl rfl rfl
  · exact .of_unchanged rfl rfl rfl
  · exact .refl s

theorem drain_notifies (s : State) : s.NotifiesTo s.drain :=
  drain_induction s (.of_unchanged rfl rfl rfl) fun t b ht _ => ht.trans (command_notifies t b)

theorem tickControl_notifies (s : State) : s.NotifiesTo s.tickControl := (xing_notifies s _).trans (drain_notifies _)

theorem runTick_notifies (s : State) (m p : Nat) : s.NotifiesTo (s.runTick m p) :=
  (tickControl_notifies s).trans
    (.of_unchanged ((runTick_cfg s m p).trans (tickControl_cfg s).symm) (runTick_tx s m p) (runTick_mode s m p))

theorem steerCommand_notifies (s : State) (y : SteerSym) : s.NotifiesTo (s.steerCommand y) := by
  rcases steerCommand_cases s y with ⟨_, h⟩ | ⟨_, h⟩ <;> rw [h] <;> exact .of_unchanged rfl rfl rfl

theorem driveCommand_notifies (s : State) (y : DriveSym) : s.NotifiesTo (s.driveCommand y) := by
  rcases driveCommand_cases s y with ⟨_, h⟩ | ⟨_, h⟩ <;> rw [h] <;> exact .of_unchanged rfl rfl rfl

theorem effectOf_notifies {i : Instr} (s : State) (hformat : i.format ≠ .sts) : s.NotifiesTo (effectOf s i) := by
  cases i
  case cmdForceAuto | cmdForceManual => exact forceMode_notifies s _
  case cmdStraight | cmdSoftLeft | cmdSoftRight | cmdHardLeft | cmdHardRight => exact steerCommand_notifies s _
  case cmdForward | cmdBackward | cmdNeutral => exact driveCommand_notifies s _
  case notifyAuto | notifyManual => exact absurd rfl hformat
  case modeXing v => exact xing_notifies s v
  case cmdDrain => exact drain_notifies s
  case tick m p =>
    rw [effectOf]
    split_ifs
    · exact runTick_notifies s m p
    · exact .refl s
  all_goals exact .of_unchanged rfl rfl rfl

theorem exec_notifyAuto {s : State} (hcfg : s.cfg.wf = true) : exec .notifyAuto s = .next (s.notify .autonomous) :=
  exec_of_operandsFit hcfg rfl

theorem exec_notifyManual {s : State} (hcfg : s.cfg.wf = true) : exec .notifyManual s = .next (s.notify .manual) :=
  exec_of_operandsFit hcfg rfl

/-- Settles O31: a status row is one append; of the others those that change the mode notify it, alone, in a drain and in a
tick. -/
theorem notificationsFollowModeChanges : Obligations.NotificationsFollowModeChanges := by
  refine ⟨fun s hcfg => ⟨exec_notifyAuto hcfg, exec_notifyManual hcfg⟩, fun i s t hformat hexec => ?_⟩
  obtain ⟨_, _, rfl⟩ := exec_eq_next.1 hexec
  exact (effectOf_notifies s hformat).2

/-! ## The record sequence -/

theorem forceMode_records (s : State) (m : Mode) : (s.forceMode m).records = s.records := by
  rcases forceMode_cases s m with ⟨_, h⟩ | ⟨_, h⟩ <;> rw [h]

theorem steerCommand_records (s : State) (y : SteerSym) : (s.steerCommand y).records = s.records := by
  rcases steerCommand_cases s y with ⟨_, h⟩ | ⟨_, h⟩ <;> rw [h]

theorem driveCommand_records (s : State) (y : DriveSym) : (s.driveCommand y).records = s.records := by
  rcases driveCommand_cases s y with ⟨_, h⟩ | ⟨_, h⟩ <;> rw [h]

/-- R9: an operation appends one record or none; OUT.EMIT and an executed tick append one. -/
theorem effectOf_records (s : State) (i : Instr) :
    (effectOf s i).records = s.records ∨ ∃ r, (effectOf s i).records = s.records ++ [r] := by
  cases i
  case cmdForceAuto | cmdForceManual => exact .inl (forceMode_records s _)
  case cmdStraight | cmdSoftLeft | cmdSoftRight | cmdHardLeft | cmdHardRight => exact .inl (steerCommand_records s _)
  case cmdForward | cmdBackward | cmdNeutral => exact .inl (driveCommand_records s _)
  case modeXing v => exact .inl (xing_records s v)
  case cmdDrain => exact .inl (drain_records s)
  case outEmit => exact .inr ⟨_, rfl⟩
  case tick m p =>
    rw [effectOf]
    split_ifs
    · exact .inr ⟨_, runTick_records s m p⟩
    · exact .inl rfl
  all_goals exact .inl rfl

theorem effectOf_tx_grows (s : State) (i : Instr) : ∃ bs, (effectOf s i).tx = s.tx ++ bs := by
  by_cases hformat : i.format = .sts
  · cases i
    case notifyAuto | notifyManual => exact ⟨_, rfl⟩
    all_goals exact nomatch hformat
  · obtain ⟨_, bs, htx, _⟩ := effectOf_notifies s hformat
    exact ⟨bs, htx⟩

/-- Settles O15: both sequences are appended to, and an edge and a received byte append to neither. -/
theorem observationOnlyGrows : Obligations.ObservationOnlyGrows := by
  intro i s t hexec
  obtain ⟨_, _, rfl⟩ := exec_eq_next.1 hexec
  refine ⟨effectOf_tx_grows s i, ?records, ?edges, ?bytes⟩
  case records =>
    rcases effectOf_records s i with h | ⟨r, h⟩
    · exact ⟨[], by rw [h, List.append_nil], Nat.zero_le 1⟩
    · exact ⟨[r], h, le_refl 1⟩
  case edges => rintro c now (rfl | rfl) <;> rfl
  case bytes => rintro b rfl; rfl

end Sys2Proof.Machine
end

section
/-! PROOFS. The good states (10_state.md R28, R29): the reset state is good, every update an operation is made of keeps a
state good, and so does every step and every admitted run. -/

namespace Sys2Proof.Machine

/-! ## Reset -/

theorem resetWith_ch (cfg : Cfg) (c : Chan) : (State.resetWith cfg).ch c = Channel.reset cfg := by cases c <;> rfl

theorem resetWith_rings (cfg : Cfg) (i : Fin 5) :
    (State.resetWith cfg).ringSteer[i] = cfg.neutralUs ∧ (State.resetWith cfg).ringDrive[i] = cfg.neutralUs :=
  ⟨Vector.getElem_replicate i.isLt, Vector.getElem_replicate i.isLt⟩

/-- Settles O6: the channels and the rings are uniform; every other field is read off the definition. -/
theorem resetState : Obligations.ResetState := fun cfg =>
  ⟨resetWith_ch cfg, resetWith_rings cfg, rfl, rfl, rfl, rfl, rfl, rfl, ⟨rfl, rfl, rfl, rfl⟩, rfl, rfl, rfl, rfl, rfl, rfl⟩

theorem inv_resetWith {cfg : Cfg} (hcfg : cfg.wf = true) : (State.resetWith cfg).Inv :=
  have ⟨hneutral, hraw, hprev⟩ := Cfg.wf_resets_fit hcfg
  { cfgWf := hcfg
    chansFit := fun c => by
      rw [resetWith_ch]
      exact ⟨hraw, Nat.two_pow_pos _⟩
    steerFits := fun i => by
      rw [(resetWith_rings cfg i).1]
      exact hneutral
    driveFits := fun i => by
      rw [(resetWith_rings cfg i).2]
      exact hneutral
    prevFits := hprev
    lastFits := Nat.two_pow_pos _
    recordsInRange := nofun
    portsShow := ⟨rfl, rfl, rfl, rfl⟩
    txAlternates := rfl
    scratchEmpty := rfl
    pendingFits := nofun }

/-- Settles O7: the reset values fit their widths (R5 (i)), and nothing has been shown or scheduled. -/
theorem resetMeetsInvariant : Obligations.ResetMeetsInvariant :=
  ⟨fun _ => inv_resetWith, inv_resetWith (by decide)⟩

/-! ## The updates -/

theorem State.Inv.setCh {s : State} {e : Channel} (h : s.Inv) (c : Chan) (he : e.Fits s.cfg) : (s.setCh c e).Inv :=
  { h with
    chansFit := fun d => by
      by_cases hd : d = c
      · rw [hd, State.ch_setCh_self]
        exact he
      · rw [State.ch_setCh_ne s e hd]
        exact h.chansFit d }

theorem State.Inv.pushRx {s : State} (h : s.Inv) (b : Byte) : (s.pushRx b).Inv := { h with }

theorem State.Inv.setLastTick {s : State} {m : Nat} (h : s.Inv) (hm : m < 2 ^ s.cfg.wMs) : (s.setLastTick m).Inv :=
  { h with lastFits := hm }

theorem ring_set_lt {r : Vector Nat 5} {k : Fin 5} {v m : Nat} (hr : ∀ i : Fin 5, r[i] < m) (hv : v < m) (i : Fin 5) :
    (r.set k v)[i] < m := by
  have hget : (r.set k v)[i] = if (k : Nat) = i then v else r[i] := Vector.getElem_set k.isLt i.isLt
  rw [hget]
  split_ifs
  · exact hv
  · exact hr i

theorem State.Inv.filtWrite {s : State} {a b : Nat} (h : s.Inv) (ha : a < 2 ^ s.cfg.wUs) (hb : b < 2 ^ s.cfg.wUs) :
    (s.filtWrite a b).Inv :=
  { h with steerFits := ring_set_lt h.steerFits ha, driveFits := ring_set_lt h.driveFits hb }

/-- The control registers of a state that has notified its changes of mode and holds a sample that fits. -/
theorem State.Inv.withControl {s k : State} (h : s.Inv) (hprev : k.prevSel < 2 ^ s.cfg.wUs) (hk : s.NotifiesTo k) :
    (s.withControl k).Inv :=
  { h with prevFits := hprev, txAlternates := hk.1 ▸ hk.streamMode_eq h.txAlternates }

theorem State.Inv.emitRecord {s : State} {r : OutRecord} (h : s.Inv) (hr : r.InRange s.cfg) : (s.emitRecord r).Inv :=
  { h with
    recordsInRange := List.forall_mem_append.2 ⟨h.recordsInRange, List.forall_mem_singleton.2 hr⟩
    portsShow := by
      rw [State.emitRecord_records, List.getLast?_concat]
      exact portsShow_emitRecord s r }

theorem State.Inv.clearScratch {s : State} (h : s.Inv) : (s.setScratch {}).Inv := { h with scratchEmpty := rfl }

/-! ## The operations of a step -/

theorem State.Inv.raw_lt {s : State} (h : s.Inv) (c : Chan) : (s.ch c).raw < 2 ^ s.cfg.wUs := (h.chansFit c).1

theorem Channel.Fits.rise {cfg : Cfg} {e : Channel} {t : Nat} (he : e.Fits cfg) (ht : t < 2 ^ cfg.wUs) :
    (e.rise t).Fits cfg := ⟨he.1, ht⟩

theorem Channel.Fits.fall {cfg : Cfg} {e : Channel} (he : e.Fits cfg) (t : Nat) : (e.fall cfg.wUs t).Fits cfg := by
  cases harmed : e.armed
  case false => rw [Channel.fall_of_not_armed _ _ harmed]; exact he
  case true => rw [Channel.fall_of_armed _ _ harmed]; exact ⟨wrapSub_lt _ _ _, he.2⟩

theorem command_prevSel (s : State) (b : Byte) : (s.command b).prevSel = s.prevSel := by rw [command_frame]

theorem drain_prevSel (s : State) : s.drain.prevSel = s.prevSel := by rw [drain_frame]

theorem xing_prevSel (s : State) (v : Nat) : (s.xing v).prevSel = v := by
  rcases xing_cases s v with ⟨_, h⟩ | ⟨_, h⟩ <;> rw [h]

/-- R19: an executed tick leaves in `prev_sel` the raw mode-select width it saw. -/
theorem tickControl_prevSel (s : State) : s.tickControl.prevSel = (s.ch .modeSelect).raw :=
  (drain_prevSel _).trans (xing_prevSel s _)

theorem State.Inv.command {s : State} (h : s.Inv) (b : Byte) : (s.command b).Inv := by
  have hframe : s.command b = s.withControl (s.command b) := command_withControl (s := s) (k := s) b rfl
  rw [hframe]
  exact h.withControl (command_prevSel s b ▸ h.prevFits) (command_notifies s b)

theorem State.Inv.runTick {s : State} {m : Nat} (p : Nat) (h : s.Inv) (hm : m < 2 ^ s.cfg.wMs) : (s.runTick m p).Inv := by
  have hfilter : s.tickFilter.Inv := h.filtWrite (h.raw_lt .steering) (h.raw_lt .drive)
  have hcontrol : (s.tickFilter.withControl s.tickControl).Inv :=
    hfilter.withControl (tickControl_prevSel s ▸ h.raw_lt .modeSelect) (tickControl_notifies s)
  have hrange : (s.tickOutput p).InRange s.cfg := by
    rw [← tickControl_cfg s]
    exact outMap_inRange _ _ p (tickControl_cfg s ▸ h.cfgWf)
  rw [runTick_eq_parts]
  exact ((hcontrol.setLastTick hm).emitRecord ⟨_, hrange, rfl⟩).clearScratch

/-- An admitted event keeps a state good. -/
theorem State.Inv.event {s : State} {e : Event} (h : s.Inv) (he : e.wf s.cfg = true) : (effectOf s e.toInstr).Inv := by
  cases e
  case edgeRise c t => exact h.setCh c ((h.chansFit c).rise (of_decide_eq_true he))
  case edgeFall c t => exact h.setCh c ((h.chansFit c).fall t)
  case rxPush b => exact h.pushRx b
  case tick m p =>
    obtain ⟨hm, _⟩ := Bool.and_eq_true_iff.1 he
    simp only [Event.toInstr, effectOf]
    split_ifs
    · exact h.runTick p (of_decide_eq_true hm)
    · exact h

/-! ## The step -/

theorem step_of_nil {s : State} (hpending : s.pending = []) (hcfg : s.cfg.wf = true) : step s = .next s := by
  rw [step, hpending]
  exact atBoundary_of hcfg rfl

theorem step_of_event {s : State} {e : Event} {rest : List Stimulus} (h : s.pending = .event e :: rest) :
    step s = exec e.toInstr { s with pending := rest } := by
  simp only [step, h, Stimulus.fetch]

theorem step_of_command {s : State} {b : Byte} {rest : List Stimulus} (h : s.pending = .command b :: rest) :
    step s = exec (decodeCmd s.cfg b) { s with pending := rest } := by
  simp only [step, h, Stimulus.fetch, decode]

/-- Settles O11: one clause for each form of the schedule. -/
theorem stepRunsTheDecodedOperation : Obligations.StepRunsTheDecodedOperation := by
  refine ⟨fun _ _ _ => step_of_event, fun s b rest i hpending hdecode => ?_, fun _ => step_of_nil⟩
  obtain ⟨rfl, _⟩ := Prod.mk.inj (Except.ok.inj hdecode)
  exact step_of_command hpending

/-- Taking the next stimulus off the schedule leaves a good state. -/
theorem State.Inv.deliver {s : State} {x : Stimulus} {rest : List Stimulus} (h : s.Inv) (hpending : s.pending = x :: rest) :
    x.wf s.cfg = true ∧ ({ s with pending := rest } : State).Inv := by
  have hfits := h.pendingFits
  rw [hpending] at hfits
  obtain ⟨hx, hrest⟩ := List.forall_mem_cons.1 hfits
  exact ⟨hx, { h with pendingFits := hrest }⟩

/-- Settles O8: a step polls on, or runs an event whose operands fit, or dispatches a byte; each keeps a state good. -/
theorem stepKeepsInvariant : Obligations.StepKeepsInvariant := by
  intro s t hinv hstep
  cases hpending : s.pending with
  | nil =>
    rw [step_of_nil hpending hinv.cfgWf] at hstep
    obtain rfl := Host.Outcome.next.inj hstep
    exact hinv
  | cons x rest =>
    obtain ⟨hx, hrest⟩ := hinv.deliver hpending
    cases x with
    | event e =>
      rw [step_of_event hpending] at hstep
      obtain ⟨_, _, rfl⟩ := exec_eq_next.1 hstep
      exact hrest.event hx
    | command b =>
      rw [step_of_command hpending] at hstep
      have hcommand := exec_decodeCmd (s := { s with pending := rest }) b hinv.cfgWf
      obtain rfl := Host.Outcome.next.inj (hcommand.symm.trans hstep)
      exact hrest.command b

/-! ## Runs -/

/-- R29: a run of admitted events keeps a state good. -/
theorem State.Inv.runEvents {s t : State} {es : List Event} (h : s.Inv) (hes : ∀ e ∈ es, e.wf s.cfg = true)
    (hrun : runEvents es s = .next t) : t.Inv := by
  have hgood : t.cfg = s.cfg ∧ t.Inv := by
    refine runEvents_induction (P := fun u => u.cfg = s.cfg ∧ u.Inv) hrun ⟨rfl, h⟩ fun e he u v ⟨hcfg, hu⟩ hexec => ?_
    obtain ⟨_, _, rfl⟩ := exec_eq_next.1 hexec
    exact ⟨(effectOf_cfg u _).trans hcfg, hu.event (hcfg ▸ hes e he)⟩
  exact hgood.2

/-- Settles O9: an admitted event is never refused, and each keeps the state good. -/
theorem admittedRunsComplete : Obligations.AdmittedRunsComplete := by
  intro s es hinv hes
  obtain ⟨t, hrun⟩ := runEvents_completes hinv.cfgWf hes
  exact ⟨t, hrun, hinv.runEvents hes hrun⟩

/-- The event reads nothing of the schedule. -/
theorem effectOf_setPending (s : State) (e : Event) (q : List Stimulus) :
    effectOf { s with pending := q } e.toInstr = { effectOf s e.toInstr with pending := q } := by
  cases e
  case tick m p =>
    have htick : ({ s with pending := q } : State).runTick m p = { s.runTick m p with pending := q } :=
      calc (s.around s.chans q).runTick m p
        _ = (s.runTick m p).around s.chans q := runTick_around q m p fun _ => rfl
        _ = (s.runTick m p).around (s.runTick m p).chans q := by rw [runTick_chans]
    simp only [Event.toInstr, effectOf, htick]
    split_ifs <;> rfl
  all_goals rfl

theorem exec_setPending {s t : State} {e : Event} (q : List Stimulus) (h : exec e.toInstr s = .next t) :
    exec e.toInstr { s with pending := q } = .next { t with pending := q } := by
  obtain ⟨hcfg, hfit, rfl⟩ := exec_eq_next.1 h
  exact exec_eq_next.2 ⟨hcfg, hfit, (effectOf_setPending s e q).symm⟩

/-- The host's machine takes the loaded events off the schedule one by one, and ends with it empty. -/
theorem hostRun_load {s t : State} {es : List Event} (hrun : runEvents es s = .next t) :
    Host.Core.run Sys2Proof.core es.length (s.load es) = .next (t.load []) := by
  induction es generalizing s with
  | nil =>
    obtain rfl : s = t := Host.Outcome.next.inj hrun
    rfl
  | cons e es ih =>
    obtain ⟨u, hu, hrest⟩ := runEvents_cons_eq_next.1 hrun
    have hstep : step (s.load (e :: es)) = .next (u.load es) :=
      (step_of_event (s := s.load (e :: es)) rfl).trans (exec_setPending (s := s) (es.map .event) hu)
    have hrun_cons : Host.Core.run Sys2Proof.core (e :: es).length (s.load (e :: es)) =
        Host.Core.run Sys2Proof.core es.length (u.load es) := by
      simp only [List.length_cons, Host.Core.run]
      rw [show Sys2Proof.core.step (s.load (e :: es)) = .next (u.load es) from hstep]
    rw [hrun_cons, ih hrest]

theorem runEvents_pending {es : List Event} {s t : State} (h : runEvents es s = .next t) : t.pending = s.pending :=
  runEvents_induction (P := fun u => u.pending = s.pending) h rfl fun _ _ _ _ hu hv => (exec_pending hv).trans hu

/-- Settles O12: by induction on the events; an event reads nothing of the schedule it is taken from. -/
theorem hostRunIsTheRunOfEvents : Obligations.HostRunIsTheRunOfEvents := by
  intro s t es hempty hrun
  have hload : t.load [] = t := by
    rw [State.load, List.map_nil, ← (runEvents_pending hrun).trans hempty]
  rw [hostRun_load hrun, hload]

end Sys2Proof.Machine
end

section
/-! PROOFS. Pulse capture over runs (40_pulse_capture.md R68 to R71, 20_memory.md R38): an edge writes the entry of its
channel and nothing else does, so a channel's entry is what its own edges make of it, in their order. -/

namespace Sys2Proof.Machine

/-! ## The effect of an edge -/

/-- R66, R67: the view of a channel agrees with the two edge operations. -/
theorem Channel.after_edgeRise (w : Nat) (e : Channel) (c : Chan) (t : Nat) :
    e.after w (.edgeRise c t) = e.rise t := rfl

theorem Channel.after_edgeFall (w : Nat) (e : Channel) (c : Chan) (t : Nat) :
    e.after w (.edgeFall c t) = e.fall w t := by
  rw [Channel.after]
  cases harmed : e.armed
  case false => rw [Channel.fall_of_not_armed w t harmed, if_neg Bool.false_ne_true]
  case true => rw [Channel.fall_of_armed w t harmed, if_pos rfl, wrapSub]

/-- An edge is one write of its channel's entry. -/
theorem effectOf_edge {e : Event} {c : Chan} (s : State) (he : e.isEdgeOf c = true) :
    effectOf s e.toInstr = s.setCh c ((s.ch c).after s.cfg.wUs e) := by
  cases e
  case edgeRise d t =>
    obtain rfl : d = c := of_decide_eq_true he
    rw [Channel.after_edgeRise]
    rfl
  case edgeFall d t =>
    obtain rfl : d = c := of_decide_eq_true he
    rw [Channel.after_edgeFall]
    rfl
  case rxPush | tick => exact absurd he Bool.false_ne_true

/-- Only an edge of the channel writes its entry. -/
theorem effectOf_ch_of_not_edge {e : Event} {c : Chan} (s : State) (he : e.isEdgeOf c = false) :
    (effectOf s e.toInstr).ch c = s.ch c := by
  cases e
  case edgeRise d t => exact State.ch_setCh_ne s _ (Ne.symm (of_decide_eq_false he))
  case edgeFall d t => exact State.ch_setCh_ne s _ (Ne.symm (of_decide_eq_false he))
  case rxPush b => rfl
  case tick m p =>
    refine State.ch_of_chans ?_ c
    simp only [Event.toInstr, effectOf]
    split_ifs
    · exact runTick_chans s m p
    · rfl

/-! ## Ownership -/

/-- An operation that is no edge does not see the capture group beyond the raw widths: with another group of the same widths
around the state, its effect is the same inside that group. -/
theorem effectOf_around {i : Instr} {s : State} {f : Channels}
    (hi : ∀ c now, i ≠ .edgeRise c now ∧ i ≠ .edgeFall c now) (hraw : ∀ c, (f.get c).raw = (s.ch c).raw) :
    effectOf (s.around f s.pending) i = (effectOf s i).around f s.pending := by
  cases i
  case edgeRise c now => exact absurd rfl (hi c now).1
  case edgeFall c now => exact absurd rfl (hi c now).2
  case cmdForceAuto | cmdForceManual =>
    exact around_comm_of_withControl (F := (State.forceMode · _)) (forceMode_withControl _) s f s.pending
  case cmdStraight | cmdSoftLeft | cmdSoftRight | cmdHardLeft | cmdHardRight =>
    exact around_comm_of_withControl (F := (State.steerCommand · _)) (fun _ => steerCommand_withControl _ _ _) s f _
  case cmdForward | cmdBackward | cmdNeutral =>
    exact around_comm_of_withControl (F := (State.driveCommand · _)) (fun _ => driveCommand_withControl _ _ _) s f _
  case modeXing v => exact xing_around s f s.pending v
  case cmdDrain => exact drain_around s f s.pending
  case snap =>
    have hsnap : (s.around f s.pending).snapshot = s.snapshot :=
      Snapshot.mk.injEq .. ▸ ⟨hraw .steering, hraw .drive, hraw .modeSelect⟩
    rw [effectOf, hsnap]
    rfl
  case tick m p =>
    rw [effectOf, effectOf, runTick_around s.pending m p hraw]
    exact (apply_ite (State.around · f s.pending) _ _ _).symm
  all_goals rfl

/-- R38: an operation that is no edge leaves the capture group. -/
theorem effectOf_chans {i : Instr} (s : State) (hi : ∀ c now, i ≠ .edgeRise c now ∧ i ≠ .edgeFall c now) :
    (effectOf s i).chans = s.chans := by
  have haround : effectOf s i = (effectOf s i).around s.chans s.pending := effectOf_around hi fun _ => rfl
  rw [haround]
  rfl

/-- Settles O14: every other operation works inside whatever capture group stands around it, and an edge is one write of an
entry that is computed from that entry. -/
theorem captureGroupOwnership : Obligations.CaptureGroupOwnership := by
  refine ⟨fun i s t hexec hi => ?others, fun e c s t he hexec => ?edge, fun i s t f hexec hi hraw => ?reads⟩
  case others =>
    obtain ⟨_, _, rfl⟩ := exec_eq_next.1 hexec
    exact effectOf_chans s hi
  case edge =>
    obtain ⟨_, _, rfl⟩ := exec_eq_next.1 hexec
    rw [effectOf_edge s he]
    refine ⟨rfl, fun s' t' hcfg hchans hexec' => ?_⟩
    obtain ⟨_, _, rfl⟩ := exec_eq_next.1 hexec'
    rw [effectOf_edge s' he, State.setCh_chans, State.setCh_chans, State.ch_of_chans hchans, hcfg, hchans]
  case reads =>
    obtain ⟨hcfg, hfit, rfl⟩ := exec_eq_next.1 hexec
    refine exec_eq_next.2 ⟨hcfg, hfit, ?_⟩
    calc ({ effectOf s i with chans := f } : State)
      _ = (effectOf s i).around f s.pending := by rw [State.around, ← effectOf_pending s i]
      _ = effectOf (s.around f s.pending) i := (effectOf_around hi hraw).symm

/-! ## Isolation -/

theorem State.setCh_comm (s : State) {c d : Chan} (a b : Channel) (h : c ≠ d) :
    (s.setCh c a).setCh d b = (s.setCh d b).setCh c a := by
  simp only [State.setCh, Channels.set_comm s.chans a b h]

theorem effectOf_edge_comm {e f : Event} {c d : Chan} (s : State) (he : e.isEdgeOf c = true) (hf : f.isEdgeOf d = true)
    (hne : c ≠ d) : effectOf (effectOf s e.toInstr) f.toInstr = effectOf (effectOf s f.toInstr) e.toInstr := by
  rw [effectOf_edge s he, effectOf_edge s hf, effectOf_edge _ he, effectOf_edge _ hf, State.ch_setCh_ne s _ hne,
    State.ch_setCh_ne s _ hne.symm, State.setCh_cfg, State.setCh_cfg, State.setCh_comm s _ _ hne]

theorem runEvents_pair_eq_next {e f : Event} {s t : State} :
    runEvents [e, f] s = .next t ↔ ∃ u, exec e.toInstr s = .next u ∧ exec f.toInstr u = .next t := by
  simp only [runEvents_cons_eq_next, runEvents_nil, Host.Outcome.next.injEq, exists_eq_right]

/-- Settles O19: the two writes are of different entries, each computed from its own. -/
theorem edgesOfDifferentChannelsCommute : Obligations.EdgesOfDifferentChannelsCommute := by
  intro e f c d s t he hf hne hrun
  obtain ⟨u, hexec, hexec'⟩ := runEvents_pair_eq_next.1 hrun
  obtain ⟨hcfg, he_fits, rfl⟩ := exec_eq_next.1 hexec
  obtain ⟨_, hf_fits, rfl⟩ := exec_eq_next.1 hexec'
  rw [effectOf_cfg] at hf_fits
  refine runEvents_pair_eq_next.2 ⟨effectOf s f.toInstr, exec_of_operandsFit hcfg hf_fits, ?_⟩
  rw [effectOf_edge_comm s he hf hne]
  refine exec_of_operandsFit ?_ ?_ <;> rw [effectOf_cfg] <;> assumption

/-- Settles O20: by induction on the run; an event of the channel is its view of the entry, any other leaves it. -/
theorem ownEventsDecideAChannel : Obligations.OwnEventsDecideAChannel := by
  intro s t es c hrun
  induction es generalizing s with
  | nil =>
    obtain rfl : s = t := Host.Outcome.next.inj hrun
    rfl
  | cons e es ih =>
    obtain ⟨u, hexec, hrest⟩ := runEvents_cons_eq_next.1 hrun
    have hcfg := exec_cfg hexec
    obtain ⟨_, _, rfl⟩ := exec_eq_next.1 hexec
    rw [ih _ hrest, hcfg]
    cases he : e.isEdgeOf c
    case false => rw [List.filter_cons_of_neg (Bool.eq_false_iff.1 he), effectOf_ch_of_not_edge s he]
    case true => rw [List.filter_cons_of_pos he, List.foldl_cons, effectOf_edge s he, State.ch_setCh_self]

/-! ## Pairing -/

/-- What the edges before the last ones leave, and the last ones after it. -/
theorem ch_of_own_append {s t : State} {es before last : List Event} {c : Chan} (hrun : runEvents es s = .next t)
    (hown : es.filter (Event.isEdgeOf c) = before ++ last) :
    t.ch c = last.foldl (Channel.after s.cfg.wUs) (before.foldl (Channel.after s.cfg.wUs) (s.ch c)) := by
  rw [ownEventsDecideAChannel s t es c hrun, hown, List.foldl_append]

theorem Channel.fall_armed (w : Nat) (e : Channel) (t : Nat) : (e.fall w t).armed = false := by
  cases harmed : e.armed
  case false => rw [Channel.fall_of_not_armed w t harmed]
  case true => rw [Channel.fall_of_armed w t harmed]

/-- R67: a falling edge of a channel that is not armed publishes nothing. -/
theorem Channel.fall_raw_of_not_armed {e : Channel} (w t : Nat) (h : e.armed = false) : (e.fall w t).raw = e.raw := by
  rw [Channel.fall_of_not_armed w t h]

/-- R67, R70: a falling edge right after a rising one publishes the time from that one. -/
theorem Channel.raw_fall_rise (w : Nat) (e : Channel) (t0 t1 : Nat) : ((e.rise t0).fall w t1).raw = wrapSub w t1 t0 := by
  rw [Channel.fall_of_armed w t1 rfl, Channel.rise_eq]

/-- Settles O21: the last one or two of the channel's own edges, on whatever entry the edges before them left. -/
theorem capturePairsTheLastRise : Obligations.CapturePairsTheLastRise := by
  intro s t es c own hrun hown
  refine ⟨fun before t0 h => ?rise, fun before t1 h => ?fall, fun before t0 t1 h => ?pair,
    fun before t0 t1 u h hrun' => ?twoFalls, fun t1 h hunarmed => ?oneFall⟩
  case rise =>
    rw [ch_of_own_append hrun (hown.trans h)]
    exact ⟨rfl, rfl⟩
  case fall =>
    rw [ch_of_own_append hrun (hown.trans h), List.foldl_cons, List.foldl_nil, Channel.after_edgeFall]
    exact Channel.fall_armed _ _ t1
  case pair =>
    rw [ch_of_own_append hrun (hown.trans h)]
    simp only [List.foldl_cons, List.foldl_nil, Channel.after_edgeRise, Channel.after_edgeFall]
    exact Channel.raw_fall_rise _ _ t0 t1
  case twoFalls =>
    have hall : ∀ e ∈ before ++ [.edgeFall c t0], e.isEdgeOf c = true := by
      intro e he
      have hmem : e ∈ es.filter (Event.isEdgeOf c) := by
        rw [hown, h]
        exact (List.mem_append.1 he).elim (List.mem_append_left _) fun hlast =>
          List.mem_append_right _ (by simp [List.mem_singleton.1 hlast])
      exact (List.mem_filter.1 hmem).2
    rw [ch_of_own_append hrun (hown.trans h), ch_of_own_append hrun' (List.filter_eq_self.2 hall)]
    simp only [List.foldl_cons, List.foldl_nil, Channel.after_edgeFall]
    exact Channel.fall_raw_of_not_armed _ t1 (Channel.fall_armed _ _ t0)
  case oneFall =>
    rw [ch_of_own_append (before := []) hrun (hown.trans h), List.foldl_cons, List.foldl_nil, List.foldl_nil,
      Channel.after_edgeFall]
    exact Channel.fall_raw_of_not_armed _ t1 hunarmed

/-! ## The wrap -/

/-- Settles O22: the run is admitted, its own edges are the two, and the wrapping difference of two residues is the residue
of the difference. -/
theorem wrapSafeElapsedTime : Obligations.WrapSafeElapsedTime := by
  intro c T1 T2 between s hinv hle hbetween
  have hpos := Nat.two_pow_pos s.cfg.wUs
  generalize hes : (Event.edgeRise c (T1 % 2 ^ s.cfg.wUs) :: between ++ [.edgeFall c (T2 % 2 ^ s.cfg.wUs)]) = es
  have hwf : ∀ e ∈ es, e.wf s.cfg = true := by
    rw [← hes]
    refine List.forall_mem_append.2 ⟨List.forall_mem_cons.2 ⟨?_, fun e he => (hbetween e he).1⟩,
      List.forall_mem_singleton.2 ?_⟩ <;> exact decide_eq_true (Nat.mod_lt _ hpos)
  have hown : es.filter (Event.isEdgeOf c) =
      [] ++ [.edgeRise c (T1 % 2 ^ s.cfg.wUs), .edgeFall c (T2 % 2 ^ s.cfg.wUs)] := by
    have hnone : between.filter (Event.isEdgeOf c) = [] :=
      List.filter_eq_nil_iff.2 fun e he => Bool.eq_false_iff.1 (hbetween e he).2
    simp [← hes, hnone, Event.isEdgeOf]
  obtain ⟨t, hrun⟩ := runEvents_completes hinv.cfgWf hwf
  have hraw : (t.ch c).raw = (T2 - T1) % 2 ^ s.cfg.wUs := by
    obtain ⟨_, _, hpair, _⟩ := capturePairsTheLastRise s t es c _ hrun rfl
    exact (hpair [] _ _ hown).trans (wrapSub_mod_mod hle)
  refine ⟨t, hrun, hraw, ?exact⟩
  case exact => rw [hraw, Nat.mod_eq_iff_lt hpos.ne']

/-! ## The lines of a trace -/

/-- R57: a pulse is a rising edge and the falling edge of its width, which publishes that width across the wrap too. -/
theorem runEvents_pulse {c : Chan} {t w : Nat} {s : State} (hcfg : s.cfg.wf = true) (ht : t < 2 ^ s.cfg.wUs)
    (hw : w < 2 ^ s.cfg.wUs) :
    runEvents (expandLine s.cfg (.pulse c t w)) s =
      .next (s.setCh c { raw := w, start := t, armed := false, level := false }) := by
  have hfall : ((s.setCh c ((s.ch c).rise t)).ch c).fall s.cfg.wUs ((t + w) % 2 ^ s.cfg.wUs) =
      { raw := w, start := t, armed := false, level := false } := by
    rw [State.ch_setCh_self, Channel.fall_of_armed _ _ rfl, Channel.rise_eq, wrapSub_add_mod ht hw]
  have hset (a b : Channel) : (s.setCh c a).setCh c b = s.setCh c b := by cases c <;> rfl
  refine runEvents_pair_eq_next.2 ⟨_, exec_edgeRise hcfg ht, ?_⟩
  have hexec := exec_edgeFall (c := c) (s := s.setCh c ((s.ch c).rise t)) hcfg
    (Nat.mod_lt (t + w) (Nat.two_pow_pos s.cfg.wUs))
  rwa [State.setCh_cfg, hfall, hset] at hexec

theorem exec_rxPush {s : State} (b : Byte) (hcfg : s.cfg.wf = true) : exec (.rxPush b) s = .next (s.pushRx b) :=
  exec_of_operandsFit hcfg rfl

/-- R57: a line of bytes queues them in order. -/
theorem runEvents_rxs (bs : List Byte) {s : State} (hcfg : s.cfg.wf = true) :
    runEvents (expandLine s.cfg (.rxs bs)) s = .next { s with rxq := s.rxq ++ bs } := by
  rw [expandLine]
  induction bs generalizing s with
  | nil =>
    rw [List.append_nil]
    rfl
  | cons b bs ih =>
    refine runEvents_cons_eq_next.2 ⟨_, exec_rxPush b hcfg, (ih (s := s.pushRx b) hcfg).trans ?_⟩
    rw [State.pushRx_rxq, List.append_assoc, List.singleton_append]
    rfl

/-- R56: of the events only a received byte has an encoding, the byte itself. -/
theorem flatMap_encode_eq_pushedBytes (cfg : Cfg) (es : List Event) :
    (es.flatMap fun e => encode cfg e.toInstr) = pushedBytes es := by
  induction es with
  | nil => rfl
  | cons e es ih =>
    rw [List.flatMap_cons, ih]
    cases e <;> rfl

/-- Settles O43: the pulse is two edges of one channel, the bytes are pushed one by one, and the encoding is that of the
events. -/
theorem traceLinesStandForTheirEvents : Obligations.TraceLinesStandForTheirEvents := by
  refine ⟨fun c t w s hcfg hwf => ?pulse, fun bs s hcfg => runEvents_rxs bs hcfg,
    fun cfg ls => flatMap_encode_eq_pushedBytes cfg (expandTrace cfg ls)⟩
  case pulse =>
    obtain ⟨ht, hw⟩ := Bool.and_eq_true_iff.1 hwf
    exact ⟨_, runEvents_pulse hcfg (of_decide_eq_true ht) (of_decide_eq_true hw), State.ch_setCh_self s c _,
      fun d hd => State.ch_setCh_ne s _ hd, State.setCh_frame s c _⟩

end Sys2Proof.Machine
end

section
/-! PROOFS. Snapshot and filter (20_memory.md R36, 41_sample_filter.md R76 to R82): one insertion into the rings, and the
rings read youngest sample first, from which the window property follows. -/

namespace Sys2Proof.Machine

/-! ## The phases alone -/

theorem exec_snap {s : State} (hcfg : s.cfg.wf = true) :
    exec .snap s = .next (s.setScratch { s.scratch with snap := some s.snapshot }) :=
  exec_of_operandsFit hcfg rfl

/-- Settles O23: the phase is one write of the latch. -/
theorem snapCopiesTheRawWidths : Obligations.SnapCopiesTheRawWidths := fun _ => exec_snap

/-- FILT.UPDATE run alone: one insertion, and the new means in the latch. -/
def State.filtUpdate (s : State) (a b : Nat) : State :=
  (s.filtWrite a b).setScratch { s.scratch with filt := some (s.filtWrite a b).means }

theorem effectOf_filtUpdate (s : State) (a b : Nat) : effectOf s (.filtUpdate a b) = s.filtUpdate a b := rfl

theorem exec_filtUpdate {a b : Nat} {s : State} (hcfg : s.cfg.wf = true) (ha : a < 2 ^ s.cfg.wUs)
    (hb : b < 2 ^ s.cfg.wUs) : exec (.filtUpdate a b) s = .next (s.filtUpdate a b) :=
  exec_of_operandsFit hcfg (Bool.and_eq_true_iff.2 ⟨decide_eq_true ha, decide_eq_true hb⟩)

theorem filtUpdate_ringSteer (s : State) (a b : Nat) : (s.filtUpdate a b).ringSteer = s.ringSteer.set s.idx a := rfl

theorem filtUpdate_ringDrive (s : State) (a b : Nat) : (s.filtUpdate a b).ringDrive = s.ringDrive.set s.idx b := rfl

theorem filtUpdate_idx (s : State) (a b : Nat) : (s.filtUpdate a b).idx = s.idx + 1 := Fin.ext rfl

theorem filtUpdate_cfg (s : State) (a b : Nat) : (s.filtUpdate a b).cfg = s.cfg := rfl

/-- R77: the latch holds the means over the slots as just written. -/
theorem filtUpdate_filt (s : State) (a b : Nat) : (s.filtUpdate a b).scratch.filt = some (s.filtUpdate a b).means := rfl

theorem ringMean_eq {cfg : Cfg} (r : Vector Nat 5) (hcfg : cfg.wf = true) : ringMean cfg r = ringSum r / 5 := by
  rw [ringMean, Cfg.wf_n hcfg]

theorem means_eq {s : State} (hcfg : s.cfg.wf = true) :
    s.means = ⟨ringSum s.ringSteer / 5, ringSum s.ringDrive / 5⟩ := by
  rw [State.means, ringMean_eq _ hcfg, ringMean_eq _ hcfg]

theorem ring_set_self (r : Vector Nat 5) (k : Fin 5) (v : Nat) : (r.set k v)[k] = v := Vector.getElem_set_self k.isLt

theorem ring_set_ne (r : Vector Nat 5) {k j : Fin 5} (v : Nat) (h : j ≠ k) : (r.set k v)[j] = r[j] :=
  Vector.getElem_set_ne k.isLt j.isLt fun hkj => h (Fin.ext hkj.symm)

/-- Settles O24: the insertion is one write in each ring, and the means are taken after it. -/
theorem filterUpdateInsertsAndAverages : Obligations.FilterUpdateInsertsAndAverages := by
  intro a b s hcfg ha hb
  refine ⟨_, exec_filtUpdate hcfg ha hb, ring_set_self _ _ a, ring_set_self _ _ b,
    fun j hj => ⟨ring_set_ne _ a hj, ring_set_ne _ b hj⟩, rfl, ⟨_, rfl, ?steer, ?drive⟩, rfl⟩
  case steer => exact ringMean_eq (cfg := s.cfg) _ hcfg
  case drive => exact ringMean_eq (cfg := s.cfg) _ hcfg

/-! ## The ring, youngest sample first -/

/-- The slots of a ring whose next position is `k`, youngest sample first: the slot before the position, then backwards. -/
def youngestFirst (r : Vector Nat 5) (k : Fin 5) : List Nat := [r[k + 4], r[k + 3], r[k + 2], r[k + 1], r[k]]

theorem sum_youngestFirst (r : Vector Nat 5) (k : Fin 5) : (youngestFirst r k).sum = ringSum r := by
  fin_cases k <;> simp [youngestFirst, ringSum] <;> omega

/-- R79: an insertion puts its sample in front and drops the oldest one. -/
theorem youngestFirst_set (r : Vector Nat 5) (k : Fin 5) (v : Nat) :
    youngestFirst (r.set k v) (k + 1) = (v :: youngestFirst r k).take 5 := by
  fin_cases k <;> simp [youngestFirst]

theorem youngestFirst_replicate (v : Nat) (k : Fin 5) :
    youngestFirst (Vector.replicate 5 v) k = List.replicate 5 v := by
  fin_cases k <;> rfl

/-! ## Runs of insertions -/

/-- The state after a list of insertions, oldest first. -/
def State.insertAll (s : State) (vs : List (Nat × Nat)) : State := vs.foldl (fun u v => u.filtUpdate v.1 v.2) s

theorem insertAll_append (s : State) (vs : List (Nat × Nat)) (v : Nat × Nat) :
    s.insertAll (vs ++ [v]) = (s.insertAll vs).filtUpdate v.1 v.2 := by
  rw [State.insertAll, List.foldl_append]
  rfl

theorem runInstrs_filtUpdate {s : State} {vs : List (Nat × Nat)} (hcfg : s.cfg.wf = true)
    (hfit : ∀ v ∈ vs, v.1 < 2 ^ s.cfg.wUs ∧ v.2 < 2 ^ s.cfg.wUs) :
    runInstrs (vs.map fun v => .filtUpdate v.1 v.2) s = .next (s.insertAll vs) := by
  induction vs generalizing s with
  | nil => rfl
  | cons v vs ih =>
    obtain ⟨⟨ha, hb⟩, hfit⟩ := List.forall_mem_cons.1 hfit
    exact runInstrs_cons_eq_next.2 ⟨_, exec_filtUpdate hcfg ha hb, ih (s := s.filtUpdate v.1 v.2) hcfg hfit⟩

theorem insertAll_cfg (s : State) (vs : List (Nat × Nat)) : (s.insertAll vs).cfg = s.cfg := by
  induction vs using List.reverseRecOn with
  | nil => rfl
  | append_singleton vs v ih => rw [insertAll_append, filtUpdate_cfg, ih]

theorem insertAll_idx (s : State) (vs : List (Nat × Nat)) :
    (s.insertAll vs).idx.val = (s.idx.val + vs.length) % 5 := by
  induction vs using List.reverseRecOn with
  | nil => exact (Nat.mod_eq_of_lt s.idx.isLt).symm
  | append_singleton vs v ih =>
    rw [insertAll_append, filtUpdate_idx, Fin.val_add, ih, List.length_append, List.length_singleton, Fin.val_one,
      Nat.mod_add_mod, Nat.add_assoc]

/-- The first five of a list depend on the first five behind its head only. -/
theorem take_five_cons_take (v : Nat) (l : List Nat) : (v :: l.take 5).take 5 = (v :: l).take 5 := by
  rw [List.take_succ_cons, List.take_succ_cons, List.take_take]
  rfl

/-- R79: after any insertions each ring holds, youngest first, the first five of the samples in reverse order followed by
what it held before. -/
theorem insertAll_window (s : State) (vs : List (Nat × Nat)) :
    youngestFirst (s.insertAll vs).ringSteer (s.insertAll vs).idx =
      ((vs.map Prod.fst).reverse ++ youngestFirst s.ringSteer s.idx).take 5 ∧
    youngestFirst (s.insertAll vs).ringDrive (s.insertAll vs).idx =
      ((vs.map Prod.snd).reverse ++ youngestFirst s.ringDrive s.idx).take 5 := by
  induction vs using List.reverseRecOn with
  | nil => exact ⟨rfl, rfl⟩
  | append_singleton vs v ih =>
    obtain ⟨hsteer, hdrive⟩ := ih
    rw [insertAll_append, filtUpdate_ringSteer, filtUpdate_ringDrive, filtUpdate_idx, youngestFirst_set,
      youngestFirst_set, hsteer, hdrive, take_five_cons_take, take_five_cons_take]
    simp only [List.map_append, List.map_cons, List.map_nil, List.reverse_append, List.reverse_singleton,
      List.cons_append, List.nil_append, and_self]

/-- R77: after at least one insertion the latch holds the means over the slots. -/
theorem insertAll_filt {s : State} {vs : List (Nat × Nat)} (hvs : vs ≠ []) :
    (s.insertAll vs).scratch.filt = some (s.insertAll vs).means := by
  obtain ⟨us, v, rfl⟩ := (List.eq_nil_or_concat' vs).resolve_left hvs
  rw [insertAll_append, filtUpdate_filt]

/-- R79 with R77: the latch after at least one insertion, in terms of the samples. -/
theorem insertAll_filt_eq {s : State} {vs : List (Nat × Nat)} (hcfg : s.cfg.wf = true) (hvs : vs ≠ []) :
    (s.insertAll vs).scratch.filt = some
      ⟨(((vs.map Prod.fst).reverse ++ youngestFirst s.ringSteer s.idx).take 5).sum / 5,
       (((vs.map Prod.snd).reverse ++ youngestFirst s.ringDrive s.idx).take 5).sum / 5⟩ := by
  obtain ⟨hsteer, hdrive⟩ := insertAll_window s vs
  rw [insertAll_filt hvs, means_eq (by rw [insertAll_cfg, hcfg]), ← hsteer, ← hdrive, sum_youngestFirst,
    sum_youngestFirst]

/-- Settles O25: the window over rings that held neutral samples. -/
theorem filterIsTheMeanOfTheLastFive : Obligations.FilterIsTheMeanOfTheLastFive := by
  intro s vs hcfg hvs hsteer hdrive hfit
  refine ⟨_, runInstrs_filtUpdate hcfg hfit, ?filt, insertAll_idx s vs⟩
  case filt => rw [insertAll_filt_eq hcfg hvs, hsteer, hdrive, youngestFirst_replicate]

/-- R81: the mean lies between any bounds of the slots. -/
theorem ringMean_bounds {cfg : Cfg} {r : Vector Nat 5} {lo hi : Nat} (hcfg : cfg.wf = true)
    (h : ∀ j : Fin 5, lo ≤ r[j] ∧ r[j] ≤ hi) : lo ≤ ringMean cfg r ∧ ringMean cfg r ≤ hi := by
  have hsum := ringSum_bounds h
  rw [ringMean_eq r hcfg]
  omega

/-- The window after five equal samples. -/
theorem take_five_replicate (v : Nat) (l : List Nat) : ((List.replicate 5 v).reverse ++ l).take 5 = List.replicate 5 v :=
  rfl

/-- Settles O26: the bounds are those of the sum, and five equal samples fill the window. -/
theorem filterIsBoundedAndConverges : Obligations.FilterIsBoundedAndConverges := by
  refine ⟨fun s t a b lo hi f hexec hf => ?bounded, fun s v w hcfg hv hw => ?converges⟩
  case bounded =>
    obtain ⟨hcfg, _, rfl⟩ := exec_eq_next.1 hexec
    rw [effectOf_filtUpdate, filtUpdate_filt] at hf
    obtain rfl := Option.some.inj hf
    exact ⟨ringMean_bounds hcfg, ringMean_bounds hcfg⟩
  case converges =>
    have hrun := runInstrs_filtUpdate (vs := List.replicate 5 (v, w)) hcfg fun u hu => by
      rw [List.eq_of_mem_replicate hu]
      exact ⟨hv, hw⟩
    refine ⟨_, hrun, ?_⟩
    rw [insertAll_filt_eq hcfg (by simp), List.map_replicate, List.map_replicate, take_five_replicate,
      take_five_replicate, List.sum_replicate, List.sum_replicate]
    simp

/-! ## The running sum -/

theorem sum_toList (r : Vector Nat 5) : r.toList.sum = ringSum r := by
  obtain ⟨⟨l⟩, hl⟩ := r
  match l, hl with
  | [a, b, c, d, e], _ => simp [ringSum, Nat.add_assoc]

/-- R82: what the running sum subtracts is part of the sum. -/
theorem ringSum_set_eq (r : Vector Nat 5) (k : Fin 5) (v : Nat) : ringSum (r.set k v) = ringSum r - r[k] + v := by
  have hset := ringSum_set r k v
  have hzero := ringSum_set r k 0
  omega

/-- R82: five slots of width `W` sum to less than `2 ^ (W + 3)`. -/
theorem ringSum_lt {r : Vector Nat 5} {w : Nat} (h : ∀ i : Fin 5, r[i] < 2 ^ w) : ringSum r < 2 ^ (w + 3) := by
  obtain ⟨_, hsum⟩ := ringSum_bounds (lo := 0) fun i => ⟨Nat.zero_le _, (h i).le⟩
  have hpos := Nat.two_pow_pos w
  rw [Nat.pow_add]
  omega

/-- Settles O27: the sum changes by the difference of the two samples, and the new slots fit their width because the state is
good. -/
theorem runningSumGivesTheSameMean : Obligations.RunningSumGivesTheSameMean := by
  rintro s t a b _ _ hinv hexec rfl rfl
  obtain ⟨_, hfit, rfl⟩ := exec_eq_next.1 hexec
  obtain ⟨ha, hb⟩ := Bool.and_eq_true_iff.1 hfit
  rw [effectOf_filtUpdate, filtUpdate_filt, means_eq (s := s.filtUpdate a b) hinv.cfgWf, filtUpdate_ringSteer,
    filtUpdate_ringDrive]
  simp only [sum_toList, ringSum_set_eq, true_and]
  rw [← ringSum_set_eq, ← ringSum_set_eq]
  exact ⟨ringSum_lt (ring_set_lt hinv.steerFits (of_decide_eq_true ha)),
    ringSum_lt (ring_set_lt hinv.driveFits (of_decide_eq_true hb))⟩

end Sys2Proof.Machine
end

section
/-! PROOFS. Mode and intent over runs (42_mode_controller.md R91 to R93, 43_command_interpreter.md R96 to R110,
70_reset_and_hazards.md R168): how often the crossing toggles, when a drain changes nothing, which symbol it leaves, and when
the mode stays as reset left it. -/

namespace Sys2Proof.Machine

/-! ## Counting the toggles -/

/-- R91: the count adds one exactly at a crossing. -/
theorem sideChanges_cons (cfg : Cfg) (p v : Nat) (vs : List Nat) :
    sideChanges cfg.modeThreshUs p (v :: vs) =
      (if crossing cfg p v then 1 else 0) + sideChanges cfg.modeThreshUs v vs := by
  rw [sideChanges, crossing_eq_bne_side]
  cases decide (cfg.modeThreshUs < p) <;> cases decide (cfg.modeThreshUs < v) <;> rfl

/-- R91: over admitted samples each side change is one notification, and an odd number of them is the other mode. -/
theorem runInstrs_modeXing {s : State} {vs : List Nat} (hcfg : s.cfg.wf = true) (hfit : ∀ v ∈ vs, v < 2 ^ s.cfg.wUs) :
    ∃ t, runInstrs (vs.map .modeXing) s = .next t ∧
      t.tx.length = s.tx.length + sideChanges s.cfg.modeThreshUs s.prevSel vs ∧
      t.mode = if sideChanges s.cfg.modeThreshUs s.prevSel vs % 2 = 0 then s.mode else otherMode s.mode := by
  induction vs generalizing s with
  | nil => exact ⟨s, rfl, rfl, rfl⟩
  | cons v vs ih =>
    obtain ⟨hv, hfit⟩ := List.forall_mem_cons.1 hfit
    have hsame := xing_cfg s v
    obtain ⟨t, hrun, htx, hmode⟩ := ih (s := s.xing v) (hsame ▸ hcfg) (hsame ▸ hfit)
    rw [hsame, xing_prevSel] at htx hmode
    refine ⟨t, runInstrs_cons_eq_next.2 ⟨_, exec_modeXing hcfg hv, hrun⟩, ?_⟩
    rw [sideChanges_cons, htx, hmode]
    cases hx : crossing s.cfg s.prevSel v
    case false =>
      rw [xing_of_not_crossing hx, if_neg Bool.false_ne_true, Nat.zero_add]
      exact ⟨rfl, rfl⟩
    case true =>
      rw [xing_of_crossing hx, if_pos rfl]
      refine ⟨?length, ?parity⟩
      case length =>
        rw [List.length_append, List.length_singleton]
        omega
      case parity =>
        rcases Nat.mod_two_eq_zero_or_one (sideChanges s.cfg.modeThreshUs v vs) with h | h
        · simp [Nat.add_mod, h]
        · simp [Nat.add_mod, h]

/-- Settles O32: the mode is the one before exactly when the count is even, because the two modes differ. -/
theorem togglesCountSideChanges : Obligations.TogglesCountSideChanges := by
  intro s vs hcfg hfit
  obtain ⟨t, hrun, htx, hmode⟩ := runInstrs_modeXing hcfg hfit
  refine ⟨t, hrun, htx, ?parity⟩
  case parity =>
    rw [hmode]
    split_ifs with heven
    · exact ⟨fun _ => heven, fun _ => rfl⟩
    · exact ⟨fun h => absurd h (otherMode_ne _), fun h => absurd h heven⟩

/-! ## Drains that change nothing but the queue -/

/-- R48: only its own byte decodes to a force command. -/
theorem eq_cmdForceAuto_of_decodeCmd {cfg : Cfg} {b : Byte} (h : decodeCmd cfg b = .cmdForceAuto) :
    b = cfg.cmdForceAuto :=
  (List.cons.inj ((congrArg (encode cfg) h).symm.trans (encode_decodeCmd cfg b))).1.symm

theorem eq_cmdForceManual_of_decodeCmd {cfg : Cfg} {b : Byte} (h : decodeCmd cfg b = .cmdForceManual) :
    b = cfg.cmdForceManual :=
  (List.cons.inj ((congrArg (encode cfg) h).symm.trans (encode_decodeCmd cfg b))).1.symm

/-- R89, R109: in Manual only the force-Autonomous byte changes anything. -/
theorem command_of_manual {s : State} {b : Byte} (hmode : s.mode = .manual) (hb : b ≠ s.cfg.cmdForceAuto) :
    s.command b = s := by
  have hformat := decodeCmd_format s.cfg b
  rw [State.command]
  cases hrow : decodeCmd s.cfg b <;> rw [hrow] at hformat
  case cmdForceAuto => exact absurd (eq_cmdForceAuto_of_decodeCmd hrow) hb
  case cmdForceManual => exact forceMode_of_mode_eq hmode
  case cmdStraight | cmdSoftLeft | cmdSoftRight | cmdHardLeft | cmdHardRight => exact steerCommand_of_manual _ hmode
  case cmdForward | cmdBackward | cmdNeutral => exact driveCommand_of_manual _ hmode
  case cmdIgnored => rfl
  all_goals exact nomatch hformat

/-- R109: a drain in Manual without a force-Autonomous byte consumes its bytes and forgets them. -/
theorem drain_of_manual {s : State} (hmode : s.mode = .manual) (hnone : s.cfg.cmdForceAuto ∉ s.rxq) :
    s.drain = { s with rxq := [] } :=
  drain_induction (P := fun t => t = { s with rxq := [] }) s rfl fun t b ht hb => by
    rw [ht]
    exact command_of_manual hmode fun h => hnone (h ▸ hb)

/-! ## The symbols a drain leaves -/

/-- A command row without a symbol writes no intent register. -/
theorem runCommand_of_no_symbol {i : Instr} (s : State) (hsteer : steerOf i = none) (hdrive : driveOf i = none) :
    s.runCommand i = s ∨ ∃ m, s.runCommand i = s.forceMode m := by
  cases i
  case cmdForceAuto | cmdForceManual => exact .inr ⟨_, rfl⟩
  case cmdStraight | cmdSoftLeft | cmdSoftRight | cmdHardLeft | cmdHardRight => exact nomatch hsteer
  case cmdForward | cmdBackward | cmdNeutral => exact nomatch hdrive
  all_goals exact .inl rfl

/-- R98: in Autonomous a byte other than force-Manual writes the symbols it carries and nothing else. -/
theorem command_of_autonomous {s : State} {b : Byte} (hmode : s.mode = .autonomous) (hb : b ≠ s.cfg.cmdForceManual) :
    s.command b = { s with
      steerSym := (steerOf (decodeCmd s.cfg b)).getD s.steerSym
      driveSym := (driveOf (decodeCmd s.cfg b)).getD s.driveSym } := by
  have hformat := decodeCmd_format s.cfg b
  rw [State.command]
  cases hrow : decodeCmd s.cfg b <;> rw [hrow] at hformat
  case cmdForceAuto => exact forceMode_of_mode_eq hmode
  case cmdForceManual => exact absurd (eq_cmdForceManual_of_decodeCmd hrow) hb
  case cmdStraight | cmdSoftLeft | cmdSoftRight | cmdHardLeft | cmdHardRight =>
    exact steerCommand_of_autonomous _ hmode
  case cmdForward | cmdBackward | cmdNeutral => exact driveCommand_of_autonomous _ hmode
  case cmdIgnored => rfl
  all_goals exact nomatch hformat

/-- The last symbol of a queue, taken from its head on. -/
theorem getD_getLast?_filterMap_cons {α β : Type} (f : α → Option β) (a : α) (as : List α) (y : β) :
    (((a :: as).filterMap f).getLast?).getD y = ((as.filterMap f).getLast?).getD ((f a).getD y) := by
  rw [List.filterMap_cons]
  cases f a with
  | none => rfl
  | some z => rw [List.getLast?_cons, Option.getD_some, Option.getD_some]

/-- R110: dispatching bytes in Autonomous, none of them force-Manual, leaves the last symbol of each kind. -/
theorem foldl_command_of_autonomous {s : State} {q : List Byte} (hmode : s.mode = .autonomous)
    (hnone : s.cfg.cmdForceManual ∉ q) :
    q.foldl State.command s = { s with
      steerSym := ((q.filterMap fun b => steerOf (decodeCmd s.cfg b)).getLast?).getD s.steerSym
      driveSym := ((q.filterMap fun b => driveOf (decodeCmd s.cfg b)).getLast?).getD s.driveSym } := by
  induction q generalizing s with
  | nil => rfl
  | cons b q ih =>
    obtain ⟨hb, hnone⟩ := not_or.1 (mt List.mem_cons.2 hnone)
    rw [List.foldl_cons, command_of_autonomous hmode (Ne.symm hb), getD_getLast?_filterMap_cons,
      getD_getLast?_filterMap_cons]
    exact ih hmode hnone

/-- Settles O42: the drain is the dispatch of its bytes, and each writes the symbols it carries. -/
theorem lastCommandOfADrainWins : Obligations.LastCommandOfADrainWins := by
  intro s hcfg hmode hnone
  rw [exec_cmdDrain hcfg, drain_eq_foldl]
  exact congrArg Host.Outcome.next (foldl_command_of_autonomous (s := { s with rxq := [] }) hmode hnone)

/-! ## Which operations write an intent register -/

/-- The intent registers of `t` are those of `s`, or hold a symbol that one of the operations `is` carries. -/
def State.IntentFrom (s t : State) (is : List Instr) : Prop :=
  (t.steerSym = s.steerSym ∨ ∃ i ∈ is, steerOf i = some t.steerSym) ∧
  (t.driveSym = s.driveSym ∨ ∃ i ∈ is, driveOf i = some t.driveSym)

theorem State.IntentFrom.of_unchanged {s t : State} (is : List Instr) (hsteer : t.steerSym = s.steerSym)
    (hdrive : t.driveSym = s.driveSym) : s.IntentFrom t is := ⟨.inl hsteer, .inl hdrive⟩

theorem State.IntentFrom.trans {s t u : State} {is : List Instr} (hst : s.IntentFrom t is) (htu : t.IntentFrom u is) :
    s.IntentFrom u is := by
  obtain ⟨hsteer, hdrive⟩ := hst
  obtain ⟨hsteer', hdrive'⟩ := htu
  refine ⟨hsteer'.elim (fun h => ?_) .inr, hdrive'.elim (fun h => ?_) .inr⟩
  · rwa [h]
  · rwa [h]

theorem forceMode_intent (s : State) (m : Mode) :
    (s.forceMode m).steerSym = s.steerSym ∧ (s.forceMode m).driveSym = s.driveSym := by
  rcases forceMode_cases s m with ⟨_, h⟩ | ⟨_, h⟩ <;> rw [h] <;> exact ⟨rfl, rfl⟩

theorem xing_intent (s : State) (v : Nat) :
    (s.xing v).steerSym = s.steerSym ∧ (s.xing v).driveSym = s.driveSym := by
  rcases xing_cases s v with ⟨_, h⟩ | ⟨_, h⟩ <;> rw [h] <;> exact ⟨rfl, rfl⟩

/-- R98: a command row writes an intent register with the symbol it carries. -/
theorem runCommand_intent (s : State) (i : Instr) : s.IntentFrom (s.runCommand i) [i] := by
  cases hsteer : steerOf i with
  | some y =>
    rw [runCommand_of_steerOf s hsteer]
    rcases steerCommand_cases s y with ⟨_, h⟩ | ⟨_, h⟩ <;> rw [h]
    · exact ⟨.inr ⟨i, List.mem_singleton_self i, hsteer⟩, .inl rfl⟩
    · exact .of_unchanged _ rfl rfl
  | none =>
    cases hdrive : driveOf i with
    | some y =>
      rw [runCommand_of_driveOf s hdrive]
      rcases driveCommand_cases s y with ⟨_, h⟩ | ⟨_, h⟩ <;> rw [h]
      · exact ⟨.inl rfl, .inr ⟨i, List.mem_singleton_self i, hdrive⟩⟩
      · exact .of_unchanged _ rfl rfl
    | none =>
      rcases runCommand_of_no_symbol s hsteer hdrive with h | ⟨m, h⟩ <;> rw [h]
      · exact .of_unchanged _ rfl rfl
      · exact .of_unchanged _ (forceMode_intent s m).1 (forceMode_intent s m).2

/-- R109: in Manual a command row writes no intent register. -/
theorem runCommand_intent_of_manual {s : State} (i : Instr) (hmode : s.mode = .manual) :
    s.IntentFrom (s.runCommand i) [] := by
  by_cases hsym : (steerOf i).isSome ∨ (driveOf i).isSome
  · rw [runCommand_of_manual hsym hmode]
    exact .of_unchanged _ rfl rfl
  · obtain ⟨hsteer, hdrive⟩ := not_or.1 hsym
    rcases runCommand_of_no_symbol s (Option.not_isSome_iff_eq_none.1 hsteer)
      (Option.not_isSome_iff_eq_none.1 hdrive) with h | ⟨m, h⟩ <;> rw [h]
    · exact .of_unchanged _ rfl rfl
    · exact .of_unchanged _ (forceMode_intent s m).1 (forceMode_intent s m).2

theorem State.IntentFrom.mono {s t : State} {is js : List Instr} (h : s.IntentFrom t is) (hsub : is ⊆ js) :
    s.IntentFrom t js :=
  ⟨h.1.imp_right fun ⟨i, hi, hy⟩ => ⟨i, hsub hi, hy⟩, h.2.imp_right fun ⟨i, hi, hy⟩ => ⟨i, hsub hi, hy⟩⟩

/-- R97: a drain takes the symbols it writes from the queue. -/
theorem drain_intent (s : State) : s.IntentFrom s.drain (s.rxq.map (decodeCmd s.cfg)) := by
  have hkept : s.drain.cfg = s.cfg ∧ s.IntentFrom s.drain (s.rxq.map (decodeCmd s.cfg)) := by
    refine drain_induction (P := fun t => t.cfg = s.cfg ∧ s.IntentFrom t (s.rxq.map (decodeCmd s.cfg))) s
      ⟨rfl, .of_unchanged _ rfl rfl⟩ fun t b ⟨hcfg, ht⟩ hb => ⟨(command_cfg t b).trans hcfg, ht.trans ?_⟩
    refine (runCommand_intent t (decodeCmd t.cfg b)).mono fun i hi => ?_
    rw [List.mem_singleton.1 hi, hcfg]
    exact List.mem_map_of_mem hb
  exact hkept.2

theorem tickControl_intent (s : State) : s.IntentFrom s.tickControl (s.rxq.map (decodeCmd s.cfg)) := by
  have hdrain := drain_intent (s.xing (s.ch .modeSelect).raw)
  rw [xing_rxq, xing_cfg] at hdrain
  exact .trans (.of_unchanged _ (xing_intent s _).1 (xing_intent s _).2) hdrain

theorem runTick_intent (s : State) (m p : Nat) : s.IntentFrom (s.runTick m p) (s.rxq.map (decodeCmd s.cfg)) :=
  .trans (tickControl_intent s) (.of_unchanged _ (runTick_steerSym s m p) (runTick_driveSym s m p))

theorem effectOf_of_format_cmd {i : Instr} (s : State) (hformat : i.format = .cmd) : effectOf s i = s.runCommand i := by
  cases i
  case cmdForceAuto | cmdForceManual | cmdStraight | cmdSoftLeft | cmdSoftRight | cmdHardLeft | cmdHardRight
      | cmdForward | cmdBackward | cmdNeutral | cmdIgnored => rfl
  all_goals exact nomatch hformat

/-- The sources of an operation's writes to the intent registers: the operation itself, when it is met in Autonomous, or the
queued bytes, when it drains them. -/
theorem effectOf_intent (s : State) (i : Instr) :
    (s.IntentFrom (effectOf s i) [i] ∧ (s.mode = .manual → s.IntentFrom (effectOf s i) [])) ∨
    ((i = .cmdDrain ∨ ∃ m p, i = .tick m p) ∧ s.IntentFrom (effectOf s i) (s.rxq.map (decodeCmd s.cfg))) := by
  by_cases hformat : i.format = .cmd
  · rw [effectOf_of_format_cmd s hformat]
    exact .inl ⟨runCommand_intent s i, runCommand_intent_of_manual i⟩
  cases i
  case cmdForceAuto | cmdForceManual | cmdStraight | cmdSoftLeft | cmdSoftRight | cmdHardLeft | cmdHardRight
      | cmdForward | cmdBackward | cmdNeutral | cmdIgnored => exact absurd rfl hformat
  case cmdDrain => exact .inr ⟨.inl rfl, drain_intent s⟩
  case tick m p =>
    refine .inr ⟨.inr ⟨m, p, rfl⟩, ?_⟩
    rw [effectOf]
    split_ifs
    · exact runTick_intent s m p
    · exact .of_unchanged _ rfl rfl
  case modeXing v =>
    have hunchanged (is : List Instr) : s.IntentFrom (s.xing v) is :=
      .of_unchanged is (xing_intent s v).1 (xing_intent s v).2
    exact .inl ⟨hunchanged _, fun _ => hunchanged _⟩
  all_goals exact .inl ⟨.of_unchanged _ rfl rfl, fun _ => .of_unchanged _ rfl rfl⟩

/-- Settles O41: an intent register that changes has one of its sources. -/
theorem intentChangesOnlyByItsCommands : Obligations.IntentChangesOnlyByItsCommands := by
  intro i s t hexec
  obtain ⟨_, _, rfl⟩ := exec_eq_next.1 hexec
  rcases effectOf_intent s i with ⟨hself, hmanual⟩ | ⟨hi, hsteer, hdrive⟩
  · cases hmode : s.mode
    case manual =>
      obtain ⟨hsteer, hdrive⟩ := hmanual hmode
      exact ⟨fun hne => absurd (hsteer.resolve_right (by simp)) hne,
        fun hne => absurd (hdrive.resolve_right (by simp)) hne⟩
    case autonomous =>
      obtain ⟨hsteer, hdrive⟩ := hself
      simp only [List.mem_singleton, exists_eq_left] at hsteer hdrive
      exact ⟨fun hne => .inl ⟨hsteer.resolve_left hne, rfl⟩, fun hne => .inl ⟨hdrive.resolve_left hne, rfl⟩⟩
  · simp only [List.mem_map, exists_exists_and_eq_and] at hsteer hdrive
    exact ⟨fun hne => .inr ⟨hi, hsteer.resolve_left hne⟩, fun hne => .inr ⟨hi, hdrive.resolve_left hne⟩⟩

/-! ## The queue -/

theorem pushedBytes_cons (e : Event) (es : List Event) : pushedBytes (e :: es) = pushedBytes [e] ++ pushedBytes es := by
  cases e <;> rfl

theorem mem_pushedBytes_of_mem {b : Byte} {es : List Event} (h : Event.rxPush b ∈ es) : b ∈ pushedBytes es := by
  induction es with
  | nil => exact absurd h List.not_mem_nil
  | cons e es ih =>
    rw [pushedBytes_cons]
    rcases List.mem_cons.1 h with rfl | h
    · exact List.mem_append_left _ List.mem_cons_self
    · exact List.mem_append_right _ (ih h)

/-- R43: between ticks an event queues the byte it pushes, if it pushes one. -/
theorem effectOf_rxq {e : Event} (s : State) (he : e.isTick = false) :
    (effectOf s e.toInstr).rxq = s.rxq ++ pushedBytes [e] := by
  cases e
  case edgeRise | edgeFall => exact (List.append_nil s.rxq).symm
  case rxPush => rfl
  case tick => exact absurd he.symm Bool.false_ne_true

theorem runEvents_rxq {es : List Event} {s t : State} (hes : ∀ e ∈ es, e.isTick = false)
    (hrun : runEvents es s = .next t) : t.rxq = s.rxq ++ pushedBytes es := by
  induction es generalizing s with
  | nil =>
    obtain rfl : s = t := Host.Outcome.next.inj hrun
    exact (List.append_nil s.rxq).symm
  | cons e es ih =>
    obtain ⟨he, hes⟩ := List.forall_mem_cons.1 hes
    obtain ⟨u, hexec, hrest⟩ := runEvents_cons_eq_next.1 hrun
    obtain ⟨_, _, rfl⟩ := exec_eq_next.1 hexec
    rw [ih hes hrest, effectOf_rxq s he, pushedBytes_cons e es, List.append_assoc]

/-- An admitted poll that finds the gate open leaves what the phases leave. -/
theorem exec_tick_eq_runTick {s t : State} {m p : Nat} (hgate : gateOpen s.cfg s.lastTickMs m = true)
    (hexec : exec (.tick m p) s = .next t) : t = s.runTick m p := by
  obtain ⟨_, _, rfl⟩ := exec_eq_next.1 hexec
  exact if_pos hgate

/-- Settles O37: a byte is appended, by induction so are all until a tick, and the drain of an executed tick leaves none. -/
theorem queueIsFirstInFirstOut : Obligations.QueueIsFirstInFirstOut := by
  refine ⟨fun b _ hcfg => exec_rxPush b hcfg, fun _ _ _ => runEvents_rxq, fun m p s t hgate hexec => ?_⟩
  rw [exec_tick_eq_runTick hgate hexec, runTick_rxq]

/-! ## The mode as reset left it -/

/-- R93: without a crossing, in Manual and without a force-Autonomous byte, a tick writes `prev_sel` and empties the queue,
and changes no other control register. -/
theorem tickControl_of_quiet {s : State} (hx : crossing s.cfg s.prevSel (s.ch .modeSelect).raw = false)
    (hmode : s.mode = .manual) (hnone : s.cfg.cmdForceAuto ∉ s.rxq) :
    s.tickControl = { s with prevSel := (s.ch .modeSelect).raw, rxq := [] } := by
  rw [State.tickControl, xing_of_not_crossing hx]
  exact drain_of_manual (s := { s with prevSel := (s.ch .modeSelect).raw }) hmode hnone

/-- R5 (h): the reset values of the mode-select path lie on one side of the threshold. -/
theorem crossing_resets {cfg : Cfg} {v : Nat} (hcfg : cfg.wf = true) (hv : v = cfg.prevResetUs ∨ v = cfg.rawResetUs) :
    crossing cfg v cfg.rawResetUs = false := by
  rw [Bool.eq_false_iff, ne_eq, crossing_eq_true_iff]
  rcases Cfg.wf_sides hcfg with ⟨hraw, hprev⟩ | ⟨hraw, hprev⟩ <;> omega

/-- The states of runs from reset in which the mode-select channel and the force-Autonomous byte are absent. -/
structure State.ModeSignalAbsent (cfg : Cfg) (s : State) : Prop where
  cfgEq : s.cfg = cfg
  rawEq : (s.ch .modeSelect).raw = cfg.rawResetUs
  prevEq : s.prevSel = cfg.prevResetUs ∨ s.prevSel = cfg.rawResetUs
  modeEq : s.mode = .manual
  txEq : s.tx = []
  noForce : cfg.cmdForceAuto ∉ s.rxq

theorem State.ModeSignalAbsent.event {cfg : Cfg} {s : State} {e : Event} (h : s.ModeSignalAbsent cfg)
    (hcfg : cfg.wf = true) (hedge : e.isEdgeOf .modeSelect = false) (hbyte : e ≠ .rxPush cfg.cmdForceAuto) :
    (effectOf s e.toInstr).ModeSignalAbsent cfg := by
  obtain ⟨rfl, hraw, hprev, hmode, htx, hnone⟩ := h
  have hraw' : ((effectOf s e.toInstr).ch .modeSelect).raw = s.cfg.rawResetUs := by
    rw [effectOf_ch_of_not_edge s hedge, hraw]
  cases e
  case edgeRise | edgeFall => exact ⟨rfl, hraw', hprev, hmode, htx, hnone⟩
  case rxPush b =>
    refine ⟨rfl, hraw', hprev, hmode, htx, fun hmem => ?_⟩
    rcases List.mem_append.1 hmem with h | h
    · exact hnone h
    · exact hbyte (congrArg Event.rxPush (List.mem_singleton.1 h)).symm
  case tick m p =>
    have hquiet := tickControl_of_quiet (hraw ▸ crossing_resets hcfg hprev) hmode hnone
    simp only [Event.toInstr, effectOf] at hraw' ⊢
    split_ifs at hraw' ⊢
    · refine ⟨runTick_cfg s m p, hraw', ?_, ?_, ?_, ?_⟩
      · rw [runTick_prevSel, tickControl_prevSel, hraw]
        exact .inr rfl
      · rw [runTick_mode, hquiet, hmode]
      · rw [runTick_tx, hquiet, htx]
      · rw [runTick_rxq]
        exact List.not_mem_nil
    · exact ⟨rfl, hraw, hprev, hmode, htx, hnone⟩

/-- Settles O33: in such a run the raw mode-select width keeps its reset value, so no tick finds a crossing. -/
theorem absentModeSignalStaysManual : Obligations.AbsentModeSignalStaysManual := by
  intro cfg es t hcfg hedges hbytes hrun
  have hstart : (State.resetWith cfg).ModeSignalAbsent cfg := ⟨rfl, rfl, .inl rfl, rfl, rfl, List.not_mem_nil⟩
  have habsent : t.ModeSignalAbsent cfg := by
    refine runEvents_induction hrun hstart fun e he u v hu hexec => ?_
    obtain ⟨_, _, rfl⟩ := exec_eq_next.1 hexec
    exact hu.event hcfg (hedges e he) fun hforce => hbytes (mem_pushedBytes_of_mem (hforce ▸ he))
  exact ⟨habsent.modeEq, habsent.txEq⟩

/-! ## The start-up toggle -/

theorem exec_tick {s : State} {m p : Nat} (hcfg : s.cfg.wf = true) (hm : m < 2 ^ s.cfg.wMs) (hp : p < 2 ^ s.cfg.wMs)
    (hgate : gateOpen s.cfg s.lastTickMs m = true) : exec (.tick m p) s = .next (s.runTick m p) := by
  refine exec_eq_next.2 ⟨hcfg, Bool.and_eq_true_iff.2 ⟨decide_eq_true hm, decide_eq_true hp⟩, ?_⟩
  rw [effectOf, if_pos hgate]

/-- R137: with `last_tick_ms` as reset left it, the sample itself is the time since. -/
theorem gateOpen_zero {cfg : Cfg} {m : Nat} (hm : m < 2 ^ cfg.wMs) :
    gateOpen cfg 0 m = true ↔ cfg.tickMs ≤ m := by
  rw [gateOpen, decide_eq_true_iff, wrapSub, Nat.sub_zero, Nat.add_mod_right, Nat.mod_eq_of_lt hm]

/-- Settles O34: the pulse leaves its width in the raw mode-select width, and the tick finds it across the threshold. -/
theorem startupToggleEntersAutonomous : Obligations.StartupToggleEntersAutonomous := by
  intro cfg t0 w m p hcfg hside ht0 hw hm hp htick
  have hx : crossing cfg cfg.prevResetUs w = true := (crossing_eq_true_iff cfg _ w).2 hside
  generalize hs : (State.resetWith cfg).setCh .modeSelect { raw := w, start := t0, armed := false, level := false } = s
  have hpulse : runEvents (expandLine cfg (.pulse .modeSelect t0 w)) (State.resetWith cfg) = .next s :=
    hs ▸ runEvents_pulse (s := State.resetWith cfg) hcfg ht0 hw
  have hcontrol : s.tickControl =
      { s with mode := .autonomous, tx := [cfg.notifyAuto], prevSel := w } := by
    subst hs
    rw [State.tickControl, State.ch_setCh_self, xing_of_crossing hx]
    exact drain_of_rxq_nil rfl
  have hexec : exec (.tick m p) s = .next (s.runTick m p) := by
    subst hs
    exact exec_tick hcfg hm hp ((gateOpen_zero hm).2 htick)
  refine ⟨_, runEvents_append_eq_next.2 ⟨s, hpulse, runEvents_cons_eq_next.2 ⟨_, hexec, rfl⟩⟩, ?_, ?_⟩
  · rw [runTick_mode, hcontrol]
  · rw [runTick_tx, hcontrol]

end Sys2Proof.Machine
end

section
/-! PROOFS. The tick sequencer (45_scheduler_tick.md R136 to R141, 70_reset_and_hazards.md R167, R179): the phases of a tick
run alone make the tick, the gate counts from the last executed tick, and what a tick makes of a crossing, of a force byte and
of a block at rest. -/

namespace Sys2Proof.Machine

/-! ## The phases run alone -/

theorem State.Inv.means_lt {s : State} (h : s.Inv) : s.means.fSteer < 2 ^ s.cfg.wUs ∧ s.means.fDrive < 2 ^ s.cfg.wUs :=
  have hn := Cfg.wf_n h.cfgWf
  ⟨ringMean_lt hn h.steerFits, ringMean_lt hn h.driveFits⟩

theorem exec_tick_of_closed {s : State} {m p : Nat} (hcfg : s.cfg.wf = true) (hm : m < 2 ^ s.cfg.wMs)
    (hp : p < 2 ^ s.cfg.wMs) (hgate : gateOpen s.cfg s.lastTickMs m = false) : exec (.tick m p) s = .next s := by
  refine exec_eq_next.2 ⟨hcfg, Bool.and_eq_true_iff.2 ⟨decide_eq_true hm, decide_eq_true hp⟩, ?_⟩
  rw [effectOf, if_neg (Bool.eq_false_iff.1 hgate)]

/-- The state after SNAP and FILT.UPDATE run alone on the state with the new `last_tick_ms`: the tick's filter with the two
results in the latch. -/
def State.snapFiltered (s : State) (m : Nat) : State :=
  ((s.setLastTick m).setScratch { s.scratch with snap := some s.snapshot }).filtUpdate s.snapshot.s0 s.snapshot.s1

/-- The state after MODE.XING and CMD.DRAIN run alone behind them. -/
def State.snapDrained (s : State) (m : Nat) : State := ((s.snapFiltered m).xing s.snapshot.s2).drain

/-- These two phases make the tick's control registers, whatever the latch holds. -/
theorem snapDrained_eq (s : State) (m : Nat) : s.snapDrained m = (s.snapFiltered m).withControl s.tickControl := by
  have hxing : (s.snapFiltered m).xing s.snapshot.s2 =
      (s.snapFiltered m).withControl (s.xing (s.ch .modeSelect).raw) :=
    xing_withControl (s := s.snapFiltered m) (k := s) _ rfl
  rw [State.snapDrained, hxing]
  exact drain_withControl (xing_cfg s _).symm

theorem snapDrained_cfg (s : State) (m : Nat) : (s.snapDrained m).cfg = s.cfg := by
  rw [snapDrained_eq]
  rfl

/-- OUT.MAP run alone behind them leaves the tick's output in the latch. -/
theorem exec_outMap_snapDrained {s : State} {m p : Nat} (hinv : s.Inv) (hp : p < 2 ^ s.cfg.wMs) :
    exec (.outMap s.tickFilter.means.fSteer s.tickFilter.means.fDrive p) (s.snapDrained m) =
      .next ((s.snapDrained m).setScratch { (s.snapDrained m).scratch with out := some (s.tickOutput p) }) := by
  have hfilter : s.tickFilter.Inv := hinv.filtWrite (hinv.raw_lt .steering) (hinv.raw_lt .drive)
  obtain ⟨hfSteer, hfDrive⟩ := hfilter.means_lt
  have hout : (s.snapDrained m).outMap s.tickFilter.means.fSteer s.tickFilter.means.fDrive p = s.tickOutput p := by
    rw [snapDrained_eq]
    exact outMap_withControl _ _ p (tickControl_cfg s).symm
  have hcfg := snapDrained_cfg s m
  rw [← hout]
  exact exec_outMap (hcfg ▸ hinv.cfgWf) (hcfg ▸ hfSteer) (hcfg ▸ hfDrive) (hcfg ▸ hp)

/-- The tick is the write of that output, with the latch emptied of whatever it holds. -/
theorem runTick_eq_snapDrained (s : State) (m p : Nat) (l : Scratch) :
    s.runTick m p = (((s.snapDrained m).setScratch l).emitRecord (s.tickOutput p).toPorts).setScratch {} := by
  rw [runTick_eq_parts, snapDrained_eq]
  rfl

/-- Settles O53: the phases run alone differ from the tick in the latch only. -/
theorem tickRunsThePhasesInOrder : Obligations.TickRunsThePhasesInOrder := by
  intro now phase s hinv hnow hphase
  have hcfg := hinv.cfgWf
  refine ⟨fun hclosed => ?closed, fun hopen => ?opened⟩
  case closed => exact exec_tick_of_closed hcfg hnow hphase (decide_eq_false hclosed.not_ge)
  case opened =>
    have htick : exec (.tick now phase) s = .next (s.runTick now phase) :=
      exec_tick hcfg hnow hphase (decide_eq_true hopen)
    have hsteer := hinv.raw_lt .steering
    have hdrive := hinv.raw_lt .drive
    have hselect := hinv.raw_lt .modeSelect
    have hdrained : (s.snapDrained now).cfg.wf = true := (snapDrained_cfg s now).symm ▸ hcfg
    have hresult (l : Scratch) := htick.trans (congrArg _ (runTick_eq_snapDrained s now phase l))
    exact ⟨_, s.snapFiltered now, _, s.snapDrained now, _, s.snapshot, s.tickFilter.means, s.tickOutput phase,
      exec_snap (s := s.setLastTick now) hcfg, rfl, exec_filtUpdate hcfg hsteer hdrive, rfl,
      exec_modeXing (s := s.snapFiltered now) hcfg hselect, exec_cmdDrain ((xing_cfg _ _).symm ▸ hcfg),
      exec_outMap_snapDrained hinv hphase, rfl, hresult _,
      fun hangle hpulse => ⟨_, exec_outEmit _ _ hdrained hangle hpulse, hresult _⟩⟩

/-! ## The gate -/

/-- R137, R138: at residues of true times the gate compares the true difference, as long as that is below the wrap. -/
theorem gateOpen_mod_mod {cfg : Cfg} {M M' : Nat} (hle : M ≤ M') (hwrap : M' - M < 2 ^ cfg.wMs) :
    gateOpen cfg (M % 2 ^ cfg.wMs) (M' % 2 ^ cfg.wMs) = decide (cfg.tickMs ≤ M' - M) := by
  rw [gateOpen, wrapSub_mod_mod hle, Nat.mod_eq_of_lt hwrap]

/-- Settles O54: the gate at the two residues is the comparison of the true difference. -/
theorem gateCountsFromTheLastTick : Obligations.GateCountsFromTheLastTick := by
  intro M M' phase s hcfg hlast hle hwrap hphase
  have hM' := Nat.mod_lt M' (Nat.two_pow_pos s.cfg.wMs)
  have hgate := hlast ▸ gateOpen_mod_mod hle hwrap
  refine ⟨fun hearly => ?early, fun hlate => ?late⟩
  case early => exact exec_tick_of_closed hcfg hM' hphase (hgate.trans (decide_eq_false hearly.not_ge))
  case late =>
    refine ⟨_, exec_tick hcfg hM' hphase (hgate.trans (decide_eq_true hlate)), runTick_lastTickMs s _ _, ?_⟩
    rw [runTick_records, List.length_append, List.length_singleton]

/-- The states of runs from reset in which no poll has found its gate open. -/
structure State.NothingShown (cfg : Cfg) (s : State) : Prop where
  cfgEq : s.cfg = cfg
  noRecords : s.records = []
  noOutputs : s.PortsShow none
  neverTicked : s.lastTickMs = 0

theorem State.NothingShown.event {cfg : Cfg} {s : State} {e : Event} (h : s.NothingShown cfg) (he : e.wf cfg = true)
    (hearly : ∀ m p, e = .tick m p → m < cfg.tickMs) : (effectOf s e.toInstr).NothingShown cfg := by
  cases e
  case edgeRise | edgeFall | rxPush => exact { h with }
  case tick m p =>
    obtain ⟨hm, _⟩ := Bool.and_eq_true_iff.1 he
    have hclosed : ¬ gateOpen s.cfg s.lastTickMs m = true := by
      rw [h.cfgEq, h.neverTicked, gateOpen_zero (of_decide_eq_true hm)]
      exact (hearly m p rfl).not_ge
    rw [Event.toInstr, effectOf, if_neg hclosed]
    exact h

/-- Settles O55: while `last_tick_ms` is 0, a sample below `TICK_MS` finds the gate closed. -/
theorem noOutputBeforeTheFirstTick : Obligations.NoOutputBeforeTheFirstTick := by
  intro cfg es t hcfg hearly hrun
  have hshown : t.NothingShown cfg := by
    refine runEvents_induction hrun ⟨rfl, rfl, ⟨rfl, rfl, rfl, rfl⟩, rfl⟩ fun e he u v hu hexec => ?_
    obtain ⟨_, hfit, rfl⟩ := exec_eq_next.1 hexec
    rw [Event.operandsFit_eq_wf, hu.cfgEq] at hfit
    exact hu.event hfit fun m p htick => hearly m p (htick ▸ he)
  exact ⟨hshown.noRecords, hshown.noOutputs, hshown.neverTicked⟩

/-! ## The block at rest -/

theorem ring_set_replicate (v : Nat) (k : Fin 5) : (Vector.replicate 5 v).set k v = Vector.replicate 5 v := by
  fin_cases k <;> rfl

/-- The states of runs of ticks from the default reset. -/
structure State.AtRest (s : State) : Prop where
  cfgEq : s.cfg = Cfg.default
  rawEq : ∀ c, (s.ch c).raw = 1500
  steerEq : s.ringSteer = Vector.replicate 5 1500
  driveEq : s.ringDrive = Vector.replicate 5 1500
  modeEq : s.mode = .manual
  prevEq : s.prevSel = 1500
  rxqEq : s.rxq = []
  txEq : s.tx = []
  recordsEq : ∀ r ∈ s.records, r = ⟨105, 1500, false, false⟩

theorem State.AtRest.tickControl {s : State} (h : s.AtRest) : s.tickControl = { s with prevSel := 1500, rxq := [] } := by
  have hx : crossing s.cfg s.prevSel (s.ch .modeSelect).raw = false := by
    rw [h.cfgEq, h.prevEq, h.rawEq]
    decide
  rw [tickControl_of_quiet hx h.modeEq (h.rxqEq ▸ List.not_mem_nil), h.rawEq]

theorem State.AtRest.tickFilter_rings {s : State} (h : s.AtRest) :
    s.tickFilter.ringSteer = Vector.replicate 5 1500 ∧ s.tickFilter.ringDrive = Vector.replicate 5 1500 := by
  rw [State.tickFilter, filtWrite_ringSteer, filtWrite_ringDrive, h.rawEq, h.rawEq, h.steerEq, h.driveEq]
  exact ⟨ring_set_replicate _ _, ring_set_replicate _ _⟩

/-- R167: neutral widths are 105 degrees and the neutral pulse, inside the no-turn band. -/
theorem outMap_neutral {s : State} (p : Nat) (hcfg : s.cfg = Cfg.default) (hmode : s.mode = .manual) :
    s.outMap 1500 1500 p = ⟨105, 1500, false, false⟩ := by
  have hangle : steerManual Cfg.default 1500 = 105 := by decide
  have hdrive : driveManual Cfg.default 1500 = .dNeutral := by decide
  have hlamps : indicators Cfg.default 105 .dNeutral p = (false, false) :=
    indicators_of_idle (by decide) (by decide) (by decide)
  rw [outMap_of_manual _ _ p hmode, hcfg, hangle, hdrive, hlamps]
  rfl

theorem State.AtRest.tickOutput {s : State} (p : Nat) (h : s.AtRest) : s.tickOutput p = ⟨105, 1500, false, false⟩ := by
  obtain ⟨hsteer, hdrive⟩ := h.tickFilter_rings
  have hmeans : s.tickFilter.means = ⟨1500, 1500⟩ := by
    rw [means_eq (s := s.tickFilter) (by rw [State.tickFilter, filtWrite_frame, h.cfgEq]; decide), hsteer, hdrive]
    rfl
  rw [State.tickOutput, hmeans, h.tickControl]
  exact outMap_neutral p h.cfgEq h.modeEq

theorem State.AtRest.runTick {s : State} (m p : Nat) (h : s.AtRest) : (s.runTick m p).AtRest where
  cfgEq := (runTick_cfg s m p).trans h.cfgEq
  rawEq c := by rw [State.ch_of_chans (runTick_chans s m p), h.rawEq]
  steerEq := (runTick_ringSteer s m p).trans h.tickFilter_rings.1
  driveEq := (runTick_ringDrive s m p).trans h.tickFilter_rings.2
  modeEq := by rw [runTick_mode, h.tickControl, h.modeEq]
  prevEq := by rw [runTick_prevSel, h.tickControl]
  rxqEq := runTick_rxq s m p
  txEq := by rw [runTick_tx, h.tickControl, h.txEq]
  recordsEq := by
    rw [runTick_records, h.tickOutput]
    exact List.forall_mem_append.2 ⟨h.recordsEq, List.forall_mem_singleton.2 (by decide)⟩

/-- Settles O56: a tick of a block at rest leaves it at rest, with one more record of the neutral values. -/
theorem atRestTheBlockIsQuiet : Obligations.AtRestTheBlockIsQuiet := by
  intro es t hticks hrun
  have hreset : State.reset.AtRest := ⟨rfl, fun c => by cases c <;> rfl, rfl, rfl, rfl, rfl, rfl, rfl, nofun⟩
  have hrest : t.AtRest := by
    refine runEvents_induction hrun hreset fun e he u v hu hexec => ?_
    obtain ⟨-, -, rfl⟩ := exec_eq_next.1 hexec
    have htick := hticks e he
    cases e
    case tick m p =>
      simp only [Event.toInstr, effectOf]
      split_ifs
      · exact hu.runTick m p
      · exact hu
    all_goals exact absurd htick Bool.false_ne_true
  exact ⟨hrest.recordsEq, hrest.txEq, hrest.modeEq, hrest.rxqEq⟩

/-! ## Crossings and force bytes within a tick -/

theorem drain_of_rxq_singleton {s : State} {b : Byte} (h : s.rxq = [b]) : s.drain = State.command { s with rxq := [] } b := by
  rw [drain_eq_foldl, h]
  rfl

/-- Settles O57: MODE.XING has entered Autonomous when the drain meets the byte. -/
theorem commandHasTheLastWord : Obligations.CommandHasTheLastWord := by
  intro now phase s hcfg hnow hphase hgate hmode hx hrxq
  have hcontrol : s.tickControl = { s with
      mode := .manual, tx := s.tx ++ [s.cfg.notifyAuto] ++ [s.cfg.notifyManual]
      prevSel := (s.ch .modeSelect).raw, rxq := [] } := by
    rw [State.tickControl, drain_of_rxq_singleton ((xing_rxq s _).trans hrxq), xing_of_crossing hx, hmode, State.command,
      decodeCmd_cmdForceManual hcfg]
    exact forceMode_of_mode_ne nofun
  refine ⟨_, exec_tick hcfg hnow hphase hgate, ?_, ?_⟩
  · rw [runTick_mode, hcontrol]
  · rw [runTick_tx, hcontrol]
    exact List.append_assoc _ _ _

/-- A tick that enters Autonomous, in either of the two ways, leaves the intent registers as they were. -/
theorem tickControl_of_entry {s : State} (hmode : s.mode = .manual)
    (hentry : (crossing s.cfg s.prevSel (s.ch .modeSelect).raw = false ∧ s.rxq = [s.cfg.cmdForceAuto]) ∨
      (crossing s.cfg s.prevSel (s.ch .modeSelect).raw = true ∧ s.rxq = [])) :
    s.tickControl.mode = .autonomous ∧ s.tickControl.steerSym = s.steerSym ∧ s.tickControl.driveSym = s.driveSym := by
  rcases hentry with ⟨hx, hrxq⟩ | ⟨hx, hrxq⟩
  · rw [State.tickControl, drain_of_rxq_singleton ((xing_rxq s _).trans hrxq), xing_of_not_crossing hx, State.command,
      decodeCmd_cmdForceAuto]
    exact ⟨forceMode_mode _ _, forceMode_intent _ _⟩
  · rw [State.tickControl, drain_of_rxq_nil ((xing_rxq s _).trans hrxq), xing_of_crossing hx, hmode]
    exact ⟨rfl, rfl, rfl⟩

/-- Settles O58: the outputs of the tick are the autonomous path's over the intent registers, which it leaves alone. -/
theorem reentryResumesTheLastIntent : Obligations.ReentryResumesTheLastIntent := by
  intro now phase s hcfg hnow hphase hgate hmode hentry
  obtain ⟨hauto, hsteer, hdrive⟩ := tickControl_of_entry hmode hentry
  obtain ⟨hangle, hpulse, _, _⟩ := runTick_portsShow s now phase
  have hout := outMap_of_autonomous (s := s.tickControl) s.tickFilter.means.fSteer s.tickFilter.means.fDrive phase hauto
  rw [tickControl_cfg, hsteer, hdrive] at hout
  refine ⟨_, exec_tick hcfg hnow hphase hgate, (runTick_mode s _ _).trans hauto, (runTick_steerSym s _ _).trans hsteer,
    (runTick_driveSym s _ _).trans hdrive, ?_, ?_⟩
  · rw [hangle, State.tickOutput, hout, OutTuple.toPorts_angle]
  · rw [hpulse, State.tickOutput, hout, OutTuple.toPorts_pulse]

/-! ## The analog channels in Autonomous -/

/-- States that agree on the control registers, the configuration and the raw mode-select width leave a tick with the same
control registers. -/
theorem tickControl_of_agree {s s' : State} (hcfg : s'.cfg = s.cfg) (hcontrol : s'.withControl s = s')
    (hraw : (s'.ch .modeSelect).raw = (s.ch .modeSelect).raw) : s'.tickControl = s'.withControl s.tickControl := by
  have hxing : s'.xing (s.ch .modeSelect).raw = s'.withControl (s.xing (s.ch .modeSelect).raw) := by
    conv_lhs => rw [← hcontrol]
    exact xing_withControl _ hcfg
  rw [State.tickControl, hraw, hxing]
  exact drain_withControl (hcfg.trans (xing_cfg s _).symm)

/-- Settles O52: the two states agree on what the control registers are made of, and in Autonomous the output is made of
those. -/
theorem autonomousIgnoresTheAnalogChannels : Obligations.AutonomousIgnoresTheAnalogChannels := by
  intro s t t' e0 e1 r0 r1 k now phase hexec hexec' hauto
  generalize hs' : ({ s with
    chans := { s.chans with steering := e0, drive := e1 }
    ringSteer := r0, ringDrive := r1, idx := k } : State) = s' at hexec'
  have hcontrol : s'.tickControl = s'.withControl s.tickControl := by
    subst hs'
    exact tickControl_of_agree rfl rfl rfl
  have hcfg : s'.cfg = s.cfg := by rw [← hs']
  have hlast : s'.lastTickMs = s.lastTickMs := by rw [← hs']
  have hobserve : s'.observe = s.observe := by rw [← hs']; rfl
  obtain ⟨_, _, rfl⟩ := exec_eq_next.1 hexec
  obtain ⟨_, _, rfl⟩ := exec_eq_next.1 hexec'
  simp only [effectOf, hcfg, hlast] at hauto ⊢
  split_ifs at hauto ⊢
  · rw [runTick_mode] at hauto
    have hout : s'.tickOutput phase = s.tickOutput phase := by
      rw [State.tickOutput, State.tickOutput, hcontrol, outMap_withControl _ _ _ (hcfg.trans (tickControl_cfg s).symm),
        outMap_of_autonomous _ _ _ hauto, outMap_of_autonomous _ _ _ hauto]
    obtain ⟨hrecords, _⟩ := Prod.mk.inj hobserve
    refine ⟨?_, ?_⟩
    · rw [State.observe, State.observe, runTick_records, runTick_records, runTick_tx, runTick_tx, hout, hrecords, hcontrol]
      rfl
    · rw [runTick_mode, hcontrol]
      exact hauto
  · refine ⟨hobserve, ?_⟩
    rw [← hs']
    exact hauto

end Sys2Proof.Machine
end
